-- ==== Sys2Proof/Word.lean ====
section
/-! DEFINITION. The widths the SIRC-1 manual gives its data: 16-bit registers and memory words, 32-bit
instructions and program counters, 24-bit word addresses (rules R6, R20, R60, R90). -/

namespace Sys2Proof

/-- One byte of a memory cell; the machine itself moves only whole words (rule R60). -/
abbrev Byte := BitVec 8

/-- A 16-bit register or memory word (rules R20, R60). -/
abbrev Word := BitVec 16

/-- A 32-bit instruction, program counter or return address (rules R41, R43, R90). -/
abbrev Long := BitVec 32

/-- A 24-bit word address, as it stands on the address bus (rule R60). -/
abbrev Address := BitVec 24

end Sys2Proof
end

