-- ==== Sys2Proof/Syntax.lean ====
section
/-! DEFINITION. The instructions of the SIRC-1: one constructor of `Instr` for each row of
`spec/opcode_table.json`, with every field of the encoding, the ignored ones included, so that no bit of an
instruction word is lost between the word and the term. -/

namespace Sys2Proof

/-- The sixteen registers, in the order of their 4-bit identifiers (rule R20). -/
inductive Reg where
  | sr | r1 | r2 | r3 | r4 | r5 | r6 | r7
  | lh | ll | ah | al | sh | sl | ph | pl
  deriving DecidableEq, Repr

/-- The four address register pairs, numbered 0 to 3 (rule R23). -/
inductive Pair where
  | l | a | s | p
  deriving DecidableEq, Repr

/-- The sixteen conditions, in the order of their codes (rule R150): always, equal, not equal, carry set,
carry clear, negative set, negative clear, overflow set, overflow clear, higher, lower or same, greater or
equal, less, greater, less or equal, never. -/
inductive Cond where
  | al | eq | ne | cs | cc | ns | nc | os | oc | hi | lo | ge | lt | gt | le | nv
  deriving DecidableEq, Repr

/-- The eight shift types, in the order of their codes (rule R100); code 111 is reserved. -/
inductive ShiftType where
  | none | lsl | lsr | asl | asr | rtl | rtr | reserved
  deriving DecidableEq, Repr

/-- Where the flags of an ALU instruction come from (rule R153), by the code of the AF field: nowhere, the
ALU, the shifter; code 11 is reserved. -/
inductive FlagSource where
  | keep | alu | shift | reserved
  deriving DecidableEq, Repr

/-- The shift count of a shift postamble: the literal of the SA field, or the register it names (rule R131). -/
inductive ShiftCount where
  | lit (n : BitVec 4)
  | reg (r : Reg)
  deriving DecidableEq, Repr

/-- The fields SO, SA and ST of the short immediate and register formats (rules R91, R92, R100). -/
structure Shift where
  count : ShiftCount
  kind  : ShiftType
  deriving DecidableEq, Repr

/-- The immediate format (rule R90). `af` is a flag source in the ALU group and an address pair in the
memory and control-flow group (rule R95). -/
structure ImmForm (α : Type) where
  reg  : Reg
  imm  : Word
  af   : α
  cond : Cond
  deriving DecidableEq, Repr

/-- The short immediate format with shift (rule R91). -/
structure ShortForm where
  reg   : Reg
  imm   : BitVec 8
  shift : Shift
  af    : FlagSource
  cond  : Cond
  deriving DecidableEq, Repr

/-- The register format (rule R92). -/
structure RegForm (α : Type) where
  r1    : Reg
  r2    : Reg
  r3    : Reg
  shift : Shift
  af    : α
  cond  : Cond
  deriving DecidableEq, Repr

/-- An exception-unit operation as COPI writes it: the parameter byte of the call value, and the fields of
the immediate format that a coprocessor call ignores (rules R270, R271). -/
structure UnitForm where
  reg  : Reg
  par  : BitVec 8
  af   : FlagSource
  cond : Cond
  deriving DecidableEq, Repr

/-- LJMP with an immediate offset: LDEA with destination `p` (rule R303). -/
structure JumpForm where
  imm  : Word
  pair : Pair
  cond : Cond
  deriving DecidableEq, Repr

/-- LJMP with a register offset: register-form LDEA with destination `p` (rule R303). -/
structure JumpRegForm where
  r2    : Reg
  r3    : Reg
  shift : Shift
  pair  : Pair
  cond  : Cond
  deriving DecidableEq, Repr

/-- SHFI: short-immediate ADDI with the flags taken from the shifter (rule R310). -/
structure ShiftImmForm where
  reg   : Reg
  imm   : BitVec 8
  shift : Shift
  cond  : Cond
  deriving DecidableEq, Repr

/-- SHFR: ADDR with the flags taken from the shifter (rule R310). -/
structure ShiftRegForm where
  r1    : Reg
  r2    : Reg
  r3    : Reg
  shift : Shift
  cond  : Cond
  deriving DecidableEq, Repr

/-- SHFT: short-immediate ORRI with immediate 0 and the flags taken from the shifter (rule R311). -/
structure ShiftForm where
  reg   : Reg
  shift : Shift
  cond  : Cond
  deriving DecidableEq, Repr

/-- The instructions: one constructor for each row of `spec/opcode_table.json`, in the table's order. The
last thirteen rows name words of a core instruction (rules R300 to R312). -/
inductive Instr where
  -- opcodes 0x00 to 0x0F: immediate format
  | addi (f : ImmForm FlagSource)
  | adci (f : ImmForm FlagSource)
  | subi (f : ImmForm FlagSource)
  | sbci (f : ImmForm FlagSource)
  | andi (f : ImmForm FlagSource)
  | orri (f : ImmForm FlagSource)
  | xori (f : ImmForm FlagSource)
  | loadi (f : ImmForm FlagSource)
  | addTest08 (f : ImmForm FlagSource)
  | adcTest09 (f : ImmForm FlagSource)
  | cmpi (f : ImmForm FlagSource)
  | sbcTest0B (f : ImmForm FlagSource)
  | tsai (f : ImmForm FlagSource)
  | orrTest0D (f : ImmForm FlagSource)
  | tsxi (f : ImmForm FlagSource)
  | copi (f : ImmForm FlagSource)
  -- opcodes 0x10 to 0x17: memory
  | storInd (f : ImmForm Pair)
  | storIndR (f : RegForm Pair)
  | storPre (f : ImmForm Pair)
  | storPreR (f : RegForm Pair)
  | loadInd (f : ImmForm Pair)
  | loadIndR (f : RegForm Pair)
  | loadPost (f : ImmForm Pair)
  | loadPostR (f : RegForm Pair)
  -- opcodes 0x18 to 0x1F: control flow
  | ldea (f : ImmForm Pair)
  | ldeaR (f : RegForm Pair)
  | bran (f : ImmForm Pair)
  | branR (f : RegForm Pair)
  | ljsr (f : ImmForm Pair)
  | ljsrR (f : RegForm Pair)
  | brsr (f : ImmForm Pair)
  | brsrR (f : RegForm Pair)
  -- opcodes 0x20 to 0x2F: short immediate format
  | addiS (f : ShortForm)
  | adciS (f : ShortForm)
  | subiS (f : ShortForm)
  | sbciS (f : ShortForm)
  | andiS (f : ShortForm)
  | orriS (f : ShortForm)
  | xoriS (f : ShortForm)
  | loadS (f : ShortForm)
  | addTest28 (f : ShortForm)
  | adcTest29 (f : ShortForm)
  | cmpiS (f : ShortForm)
  | sbcTest2B (f : ShortForm)
  | tsaiS (f : ShortForm)
  | orrTest2D (f : ShortForm)
  | tsxiS (f : ShortForm)
  | copiS (f : ShortForm)
  -- opcodes 0x30 to 0x3F: register format
  | addr (f : RegForm FlagSource)
  | adcr (f : RegForm FlagSource)
  | subr (f : RegForm FlagSource)
  | sbcr (f : RegForm FlagSource)
  | andr (f : RegForm FlagSource)
  | orrr (f : RegForm FlagSource)
  | xorr (f : RegForm FlagSource)
  | loadr (f : RegForm FlagSource)
  | addTest38 (f : RegForm FlagSource)
  | adcTest39 (f : RegForm FlagSource)
  | cmpr (f : RegForm FlagSource)
  | sbcTest3B (f : RegForm FlagSource)
  | tsar (f : RegForm FlagSource)
  | orrTest3D (f : RegForm FlagSource)
  | tsxr (f : RegForm FlagSource)
  | copr (f : RegForm FlagSource)
  -- the exception unit's operations: COPI with call values 0x11.., 0x19.., 0x1A.., 0x1B.., 0x1C.., 0x1D..
  | excp (f : UnitForm)
  | wait (f : UnitForm)
  | rete (f : UnitForm)
  | rset (f : UnitForm)
  | etfr (f : UnitForm)
  | ettr (f : UnitForm)
  -- meta-instructions
  | noop
  | rets (cond : Cond)
  | ljmp (f : JumpForm)
  | ljmpR (f : JumpRegForm)
  | shfi (f : ShiftImmForm)
  | shfr (f : ShiftRegForm)
  | shft (f : ShiftForm)
  deriving DecidableEq, Repr

/-- The condition under which an instruction executes (rules R150, R152). -/
def Instr.cond : Instr → Cond
  | .addi f | .adci f | .subi f | .sbci f | .andi f | .orri f | .xori f | .loadi f
  | .addTest08 f | .adcTest09 f | .cmpi f | .sbcTest0B f | .tsai f | .orrTest0D f | .tsxi f
  | .copi f => f.cond
  | .storInd f | .storPre f | .loadInd f | .loadPost f | .ldea f | .bran f | .ljsr f | .brsr f => f.cond
  | .storIndR f | .storPreR f | .loadIndR f | .loadPostR f | .ldeaR f | .branR f | .ljsrR f
  | .brsrR f => f.cond
  | .addiS f | .adciS f | .subiS f | .sbciS f | .andiS f | .orriS f | .xoriS f | .loadS f
  | .addTest28 f | .adcTest29 f | .cmpiS f | .sbcTest2B f | .tsaiS f | .orrTest2D f | .tsxiS f
  | .copiS f => f.cond
  | .addr f | .adcr f | .subr f | .sbcr f | .andr f | .orrr f | .xorr f | .loadr f
  | .addTest38 f | .adcTest39 f | .cmpr f | .sbcTest3B f | .tsar f | .orrTest3D f | .tsxr f
  | .copr f => f.cond
  | .excp f | .wait f | .rete f | .rset f | .etfr f | .ettr f => f.cond
  | .noop => .al
  | .rets c => c
  | .ljmp f => f.cond
  | .ljmpR f => f.cond
  | .shfi f => f.cond
  | .shfr f => f.cond
  | .shft f => f.cond

end Sys2Proof
end

