-- ==== Sys2Proof/WellFormed.lean ====
section
/-! DEFINITION. Which terms of `Instr` are the name the decoder gives to their own word. Several rows of the
opcode table name words of another row (rules R300 to R312): of two names of one word only the more specific
one is well formed, so that every word has exactly one well-formed instruction. Reserved field values (ST =
111, AF = 11) are encodings of their own and stay well formed: what they do is said by the machine. -/

namespace Sys2Proof

/-- The word of `ADDI sr, #0` without a flag update is NOOP (rule R300). -/
def ImmForm.isNoop (f : ImmForm FlagSource) : Bool :=
  f == ⟨.sr, 0, .keep, .al⟩

/-- The high bytes of a call value that name an exception-unit operation of the opcode table: EXCP, WAIT,
RETE, RSET, ETFR, ETTR (rules R271, R304 to R309). -/
def namesUnitOperation (callHigh : BitVec 8) : Bool :=
  [0x11, 0x19, 0x1A, 0x1B, 0x1C, 0x1D].contains callHigh

/-- An instruction is well formed when no other row of the opcode table gives its word a more specific name. -/
def Instr.wellFormed : Instr → Bool
  | .addi f => !f.isNoop
  | .copi f => !namesUnitOperation (f.imm.extractLsb' 8 8)
  | .ldea f => f.reg != .ph
  | .ldeaR f => f.r1 != .ph
  | .addiS f => f.af != .shift
  | .orriS f => !(f.af == .shift && f.imm == 0)
  | .addr f => f.af != .shift
  | .ljmp f => !(f.imm == 0 && f.pair == .l)
  | .adci _ | .subi _ | .sbci _ | .andi _ | .orri _ | .xori _ | .loadi _
  | .addTest08 _ | .adcTest09 _ | .cmpi _ | .sbcTest0B _ | .tsai _ | .orrTest0D _ | .tsxi _ => true
  | .storInd _ | .storIndR _ | .storPre _ | .storPreR _
  | .loadInd _ | .loadIndR _ | .loadPost _ | .loadPostR _ => true
  | .bran _ | .branR _ | .ljsr _ | .ljsrR _ | .brsr _ | .brsrR _ => true
  | .adciS _ | .subiS _ | .sbciS _ | .andiS _ | .xoriS _ | .loadS _
  | .addTest28 _ | .adcTest29 _ | .cmpiS _ | .sbcTest2B _ | .tsaiS _ | .orrTest2D _ | .tsxiS _
  | .copiS _ => true
  | .adcr _ | .subr _ | .sbcr _ | .andr _ | .orrr _ | .xorr _ | .loadr _
  | .addTest38 _ | .adcTest39 _ | .cmpr _ | .sbcTest3B _ | .tsar _ | .orrTest3D _ | .tsxr _
  | .copr _ => true
  | .excp _ | .wait _ | .rete _ | .rset _ | .etfr _ | .ettr _ => true
  | .noop | .rets _ | .ljmpR _ | .shfi _ | .shfr _ | .shft _ => true

end Sys2Proof
end

