-- ==== Sys2Proof/Decode.lean ====
section
/-! DEFINITION. Instruction words to instructions and back (rules R90 to R107). Decoding is total: every 32-bit
word is an instruction (rule R105), and `decode` rejects by name a list too short to hold one. -/

namespace Sys2Proof

/-! The codes of the small fields -/

/-- The 4-bit register identifier (rule R20). -/
def Reg.code : Reg → BitVec 4
  | .sr => 0x0 | .r1 => 0x1 | .r2 => 0x2 | .r3 => 0x3 | .r4 => 0x4 | .r5 => 0x5 | .r6 => 0x6 | .r7 => 0x7
  | .lh => 0x8 | .ll => 0x9 | .ah => 0xA | .al => 0xB | .sh => 0xC | .sl => 0xD | .ph => 0xE | .pl => 0xF

/-- The register a 4-bit identifier selects (rules R20, R22). -/
def Reg.ofCode (c : BitVec 4) : Reg :=
  match c.toNat with
  | 0x0 => .sr | 0x1 => .r1 | 0x2 => .r2 | 0x3 => .r3 | 0x4 => .r4 | 0x5 => .r5 | 0x6 => .r6 | 0x7 => .r7
  | 0x8 => .lh | 0x9 => .ll | 0xA => .ah | 0xB => .al | 0xC => .sh | 0xD => .sl | 0xE => .ph | _ => .pl

/-- The 2-bit number of an address register pair (rules R23, R95). -/
def Pair.code : Pair → BitVec 2
  | .l => 0 | .a => 1 | .s => 2 | .p => 3

def Pair.ofCode (c : BitVec 2) : Pair :=
  match c.toNat with
  | 0 => .l | 1 => .a | 2 => .s | _ => .p

/-- The 4-bit condition code (rule R150). -/
def Cond.code : Cond → BitVec 4
  | .al => 0x0 | .eq => 0x1 | .ne => 0x2 | .cs => 0x3 | .cc => 0x4 | .ns => 0x5 | .nc => 0x6 | .os => 0x7
  | .oc => 0x8 | .hi => 0x9 | .lo => 0xA | .ge => 0xB | .lt => 0xC | .gt => 0xD | .le => 0xE | .nv => 0xF

def Cond.ofCode (c : BitVec 4) : Cond :=
  match c.toNat with
  | 0x0 => .al | 0x1 => .eq | 0x2 => .ne | 0x3 => .cs | 0x4 => .cc | 0x5 => .ns | 0x6 => .nc | 0x7 => .os
  | 0x8 => .oc | 0x9 => .hi | 0xA => .lo | 0xB => .ge | 0xC => .lt | 0xD => .gt | 0xE => .le | _ => .nv

/-- The 3-bit shift type (rule R100). -/
def ShiftType.code : ShiftType → BitVec 3
  | .none => 0 | .lsl => 1 | .lsr => 2 | .asl => 3 | .asr => 4 | .rtl => 5 | .rtr => 6 | .reserved => 7

def ShiftType.ofCode (c : BitVec 3) : ShiftType :=
  match c.toNat with
  | 0 => .none | 1 => .lsl | 2 => .lsr | 3 => .asl | 4 => .asr | 5 => .rtl | 6 => .rtr | _ => .reserved

/-- The AF field of the ALU group (rule R95). -/
def FlagSource.code : FlagSource → BitVec 2
  | .keep => 0 | .alu => 1 | .shift => 2 | .reserved => 3

def FlagSource.ofCode (c : BitVec 2) : FlagSource :=
  match c.toNat with
  | 0 => .keep | 1 => .alu | 2 => .shift | _ => .reserved

/-- The SO, ST and SA fields together, bits 13 to 6 of the word (rules R91, R100). -/
def Shift.code (s : Shift) : BitVec 8 :=
  match s.count with
  | .lit n => 0#1 ++ s.kind.code ++ n
  | .reg r => 1#1 ++ s.kind.code ++ r.code

def Shift.ofCode (c : BitVec 8) : Shift :=
  let amount := c.extractLsb' 0 4
  { count := if c.getLsbD 7 then .reg (Reg.ofCode amount) else .lit amount,
    kind := ShiftType.ofCode (c.extractLsb' 4 3) }

/-! The three formats (rules R90 to R93) -/

/-- Bits 31 to 26 (rule R93). -/
def opcodeOf (w : Long) : BitVec 6 := w.extractLsb' 26 6

/-- `op6 reg4 imm16 af2 cond4` (rule R90). -/
def immWord {α : Type} (afCode : α → BitVec 2) (op : BitVec 6) (f : ImmForm α) : Long :=
  op ++ f.reg.code ++ f.imm ++ afCode f.af ++ f.cond.code

def immFields {α : Type} (afOf : BitVec 2 → α) (w : Long) : ImmForm α :=
  { reg := Reg.ofCode (w.extractLsb' 22 4), imm := w.extractLsb' 6 16,
    af := afOf (w.extractLsb' 4 2), cond := Cond.ofCode (w.extractLsb' 0 4) }

/-- `op6 reg4 imm8 so1 st3 sa4 af2 cond4` (rule R91). -/
def shortWord (op : BitVec 6) (f : ShortForm) : Long :=
  op ++ f.reg.code ++ f.imm ++ f.shift.code ++ f.af.code ++ f.cond.code

def shortFields (w : Long) : ShortForm :=
  { reg := Reg.ofCode (w.extractLsb' 22 4), imm := w.extractLsb' 14 8,
    shift := Shift.ofCode (w.extractLsb' 6 8),
    af := FlagSource.ofCode (w.extractLsb' 4 2), cond := Cond.ofCode (w.extractLsb' 0 4) }

/-- `op6 r1_4 r2_4 r3_4 so1 st3 sa4 af2 cond4` (rule R92). -/
def regWord {α : Type} (afCode : α → BitVec 2) (op : BitVec 6) (f : RegForm α) : Long :=
  op ++ f.r1.code ++ f.r2.code ++ f.r3.code ++ f.shift.code ++ afCode f.af ++ f.cond.code

def regFields {α : Type} (afOf : BitVec 2 → α) (w : Long) : RegForm α :=
  { r1 := Reg.ofCode (w.extractLsb' 22 4), r2 := Reg.ofCode (w.extractLsb' 18 4),
    r3 := Reg.ofCode (w.extractLsb' 14 4), shift := Shift.ofCode (w.extractLsb' 6 8),
    af := afOf (w.extractLsb' 4 2), cond := Cond.ofCode (w.extractLsb' 0 4) }

def aluImm (w : Long) : ImmForm FlagSource := immFields FlagSource.ofCode w
def pairImm (w : Long) : ImmForm Pair := immFields Pair.ofCode w
def aluReg (w : Long) : RegForm FlagSource := regFields FlagSource.ofCode w
def pairReg (w : Long) : RegForm Pair := regFields Pair.ofCode w

/-! The instructions that the meta-instructions and the exception-unit operations stand for -/

/-- NOOP is `ADDI sr, #0` without a flag update, word 0x00000000 (rule R300). -/
def noopExpansion : ImmForm FlagSource := ⟨.sr, 0, .keep, .al⟩

/-- RETS is `LDEA p, (#0, l)` (rule R302). -/
def retsExpansion (c : Cond) : ImmForm Pair := ⟨.ph, 0, .l, c⟩

/-- `LJMP src, #offset` is `LDEA p, (#offset, src)` (rule R303). -/
def ljmpExpansion (f : JumpForm) : ImmForm Pair := ⟨.ph, f.imm, f.pair, f.cond⟩

/-- `LJMP src, rS` is `LDEA p, (rS, src)` (rule R303). -/
def ljmpRegExpansion (f : JumpRegForm) : RegForm Pair := ⟨.ph, f.r2, f.r3, f.shift, f.pair, f.cond⟩

/-- SHFI is short-immediate `ADDI[S]` (rule R310). -/
def shfiExpansion (f : ShiftImmForm) : ShortForm := ⟨f.reg, f.imm, f.shift, .shift, f.cond⟩

/-- SHFR is `ADDR[S]` (rule R310). -/
def shfrExpansion (f : ShiftRegForm) : RegForm FlagSource := ⟨f.r1, f.r2, f.r3, f.shift, .shift, f.cond⟩

/-- `SHFT rD, shift` is `ORRI[S] rD, #0, shift` (rule R311). -/
def shftExpansion (f : ShiftForm) : ShortForm := ⟨f.reg, 0, f.shift, .shift, f.cond⟩

/-- An exception-unit operation is COPI with its operation byte above its parameter (rules R304 to R309). -/
def unitExpansion (operation : BitVec 8) (f : UnitForm) : ImmForm FlagSource :=
  ⟨f.reg, operation ++ f.par, f.af, f.cond⟩

/-! Words to instructions: the most specific row of the opcode table -/

def nameAddi (f : ImmForm FlagSource) : Instr :=
  if f.isNoop then .noop else .addi f

def nameCopi (f : ImmForm FlagSource) : Instr :=
  let u : UnitForm := ⟨f.reg, f.imm.extractLsb' 0 8, f.af, f.cond⟩
  let operation := f.imm.extractLsb' 8 8
  if operation = 0x11 then .excp u
  else if operation = 0x19 then .wait u
  else if operation = 0x1A then .rete u
  else if operation = 0x1B then .rset u
  else if operation = 0x1C then .etfr u
  else if operation = 0x1D then .ettr u
  else .copi f

def nameLdea (f : ImmForm Pair) : Instr :=
  if f.reg = .ph then
    if f.imm = 0 ∧ f.af = .l then .rets f.cond else .ljmp ⟨f.imm, f.af, f.cond⟩
  else .ldea f

def nameLdeaR (f : RegForm Pair) : Instr :=
  if f.r1 = .ph then .ljmpR ⟨f.r2, f.r3, f.shift, f.af, f.cond⟩ else .ldeaR f

def nameAddiS (f : ShortForm) : Instr :=
  if f.af = .shift then .shfi ⟨f.reg, f.imm, f.shift, f.cond⟩ else .addiS f

def nameOrriS (f : ShortForm) : Instr :=
  if f.af = .shift ∧ f.imm = 0 then .shft ⟨f.reg, f.shift, f.cond⟩ else .orriS f

def nameAddr (f : RegForm FlagSource) : Instr :=
  if f.af = .shift then .shfr ⟨f.r1, f.r2, f.r3, f.shift, f.cond⟩ else .addr f

/-- The instruction of a word, by its opcode (the opcode map, rule R105). -/
def decodeWord (w : Long) : Instr :=
  match (opcodeOf w).toNat with
  | 0x00 => nameAddi (aluImm w)
  | 0x01 => .adci (aluImm w)
  | 0x02 => .subi (aluImm w)
  | 0x03 => .sbci (aluImm w)
  | 0x04 => .andi (aluImm w)
  | 0x05 => .orri (aluImm w)
  | 0x06 => .xori (aluImm w)
  | 0x07 => .loadi (aluImm w)
  | 0x08 => .addTest08 (aluImm w)
  | 0x09 => .adcTest09 (aluImm w)
  | 0x0A => .cmpi (aluImm w)
  | 0x0B => .sbcTest0B (aluImm w)
  | 0x0C => .tsai (aluImm w)
  | 0x0D => .orrTest0D (aluImm w)
  | 0x0E => .tsxi (aluImm w)
  | 0x0F => nameCopi (aluImm w)
  | 0x10 => .storInd (pairImm w)
  | 0x11 => .storIndR (pairReg w)
  | 0x12 => .storPre (pairImm w)
  | 0x13 => .storPreR (pairReg w)
  | 0x14 => .loadInd (pairImm w)
  | 0x15 => .loadIndR (pairReg w)
  | 0x16 => .loadPost (pairImm w)
  | 0x17 => .loadPostR (pairReg w)
  | 0x18 => nameLdea (pairImm w)
  | 0x19 => nameLdeaR (pairReg w)
  | 0x1A => .bran (pairImm w)
  | 0x1B => .branR (pairReg w)
  | 0x1C => .ljsr (pairImm w)
  | 0x1D => .ljsrR (pairReg w)
  | 0x1E => .brsr (pairImm w)
  | 0x1F => .brsrR (pairReg w)
  | 0x20 => nameAddiS (shortFields w)
  | 0x21 => .adciS (shortFields w)
  | 0x22 => .subiS (shortFields w)
  | 0x23 => .sbciS (shortFields w)
  | 0x24 => .andiS (shortFields w)
  | 0x25 => nameOrriS (shortFields w)
  | 0x26 => .xoriS (shortFields w)
  | 0x27 => .loadS (shortFields w)
  | 0x28 => .addTest28 (shortFields w)
  | 0x29 => .adcTest29 (shortFields w)
  | 0x2A => .cmpiS (shortFields w)
  | 0x2B => .sbcTest2B (shortFields w)
  | 0x2C => .tsaiS (shortFields w)
  | 0x2D => .orrTest2D (shortFields w)
  | 0x2E => .tsxiS (shortFields w)
  | 0x2F => .copiS (shortFields w)
  | 0x30 => nameAddr (aluReg w)
  | 0x31 => .adcr (aluReg w)
  | 0x32 => .subr (aluReg w)
  | 0x33 => .sbcr (aluReg w)
  | 0x34 => .andr (aluReg w)
  | 0x35 => .orrr (aluReg w)
  | 0x36 => .xorr (aluReg w)
  | 0x37 => .loadr (aluReg w)
  | 0x38 => .addTest38 (aluReg w)
  | 0x39 => .adcTest39 (aluReg w)
  | 0x3A => .cmpr (aluReg w)
  | 0x3B => .sbcTest3B (aluReg w)
  | 0x3C => .tsar (aluReg w)
  | 0x3D => .orrTest3D (aluReg w)
  | 0x3E => .tsxr (aluReg w)
  | _ => .copr (aluReg w)

/-! Instructions to words, from the same encodings -/

/-- The word of an instruction (rules R90 to R92, R105, R300 to R312). -/
def encode : Instr → Long
  | .addi f => immWord FlagSource.code 0x00 f
  | .adci f => immWord FlagSource.code 0x01 f
  | .subi f => immWord FlagSource.code 0x02 f
  | .sbci f => immWord FlagSource.code 0x03 f
  | .andi f => immWord FlagSource.code 0x04 f
  | .orri f => immWord FlagSource.code 0x05 f
  | .xori f => immWord FlagSource.code 0x06 f
  | .loadi f => immWord FlagSource.code 0x07 f
  | .addTest08 f => immWord FlagSource.code 0x08 f
  | .adcTest09 f => immWord FlagSource.code 0x09 f
  | .cmpi f => immWord FlagSource.code 0x0A f
  | .sbcTest0B f => immWord FlagSource.code 0x0B f
  | .tsai f => immWord FlagSource.code 0x0C f
  | .orrTest0D f => immWord FlagSource.code 0x0D f
  | .tsxi f => immWord FlagSource.code 0x0E f
  | .copi f => immWord FlagSource.code 0x0F f
  | .storInd f => immWord Pair.code 0x10 f
  | .storIndR f => regWord Pair.code 0x11 f
  | .storPre f => immWord Pair.code 0x12 f
  | .storPreR f => regWord Pair.code 0x13 f
  | .loadInd f => immWord Pair.code 0x14 f
  | .loadIndR f => regWord Pair.code 0x15 f
  | .loadPost f => immWord Pair.code 0x16 f
  | .loadPostR f => regWord Pair.code 0x17 f
  | .ldea f => immWord Pair.code 0x18 f
  | .ldeaR f => regWord Pair.code 0x19 f
  | .bran f => immWord Pair.code 0x1A f
  | .branR f => regWord Pair.code 0x1B f
  | .ljsr f => immWord Pair.code 0x1C f
  | .ljsrR f => regWord Pair.code 0x1D f
  | .brsr f => immWord Pair.code 0x1E f
  | .brsrR f => regWord Pair.code 0x1F f
  | .addiS f => shortWord 0x20 f
  | .adciS f => shortWord 0x21 f
  | .subiS f => shortWord 0x22 f
  | .sbciS f => shortWord 0x23 f
  | .andiS f => shortWord 0x24 f
  | .orriS f => shortWord 0x25 f
  | .xoriS f => shortWord 0x26 f
  | .loadS f => shortWord 0x27 f
  | .addTest28 f => shortWord 0x28 f
  | .adcTest29 f => shortWord 0x29 f
  | .cmpiS f => shortWord 0x2A f
  | .sbcTest2B f => shortWord 0x2B f
  | .tsaiS f => shortWord 0x2C f
  | .orrTest2D f => shortWord 0x2D f
  | .tsxiS f => shortWord 0x2E f
  | .copiS f => shortWord 0x2F f
  | .addr f => regWord FlagSource.code 0x30 f
  | .adcr f => regWord FlagSource.code 0x31 f
  | .subr f => regWord FlagSource.code 0x32 f
  | .sbcr f => regWord FlagSource.code 0x33 f
  | .andr f => regWord FlagSource.code 0x34 f
  | .orrr f => regWord FlagSource.code 0x35 f
  | .xorr f => regWord FlagSource.code 0x36 f
  | .loadr f => regWord FlagSource.code 0x37 f
  | .addTest38 f => regWord FlagSource.code 0x38 f
  | .adcTest39 f => regWord FlagSource.code 0x39 f
  | .cmpr f => regWord FlagSource.code 0x3A f
  | .sbcTest3B f => regWord FlagSource.code 0x3B f
  | .tsar f => regWord FlagSource.code 0x3C f
  | .orrTest3D f => regWord FlagSource.code 0x3D f
  | .tsxr f => regWord FlagSource.code 0x3E f
  | .copr f => regWord FlagSource.code 0x3F f
  | .excp f => immWord FlagSource.code 0x0F (unitExpansion 0x11 f)
  | .wait f => immWord FlagSource.code 0x0F (unitExpansion 0x19 f)
  | .rete f => immWord FlagSource.code 0x0F (unitExpansion 0x1A f)
  | .rset f => immWord FlagSource.code 0x0F (unitExpansion 0x1B f)
  | .etfr f => immWord FlagSource.code 0x0F (unitExpansion 0x1C f)
  | .ettr f => immWord FlagSource.code 0x0F (unitExpansion 0x1D f)
  | .noop => immWord FlagSource.code 0x00 noopExpansion
  | .rets c => immWord Pair.code 0x18 (retsExpansion c)
  | .ljmp f => immWord Pair.code 0x18 (ljmpExpansion f)
  | .ljmpR f => regWord Pair.code 0x19 (ljmpRegExpansion f)
  | .shfi f => shortWord 0x20 (shfiExpansion f)
  | .shfr f => regWord FlagSource.code 0x30 (shfrExpansion f)
  | .shft f => shortWord 0x25 (shftExpansion f)

/-! Instructions as they stand in memory: two 16-bit words, the high one first (rules R61, R90) -/

/-- The two words of a 32-bit instruction, in the order of their addresses (rule R61). -/
def wordsOf (w : Long) : List Word := [w.extractLsb' 16 16, w.extractLsb' 0 16]

/-- Why a list of words holds no instruction: it ends before the second word. -/
inductive DecodeError where
  | truncated
  deriving DecidableEq, Repr

/-- The instruction at the head of a list of memory words, and the words after it. -/
def decode : List Word → Except DecodeError (Instr × List Word)
  | hi :: lo :: rest => .ok (decodeWord (hi ++ lo), rest)
  | [_] => .error .truncated
  | [] => .error .truncated

/-- The instruction the decoder reads from a word numbered as `spec/opcode_table.json` numbers it: one 32-bit
number, the opcode in bits 31 to 26 (rule R8), of which the low `nbits` are given and the rest are 0. It is laid
out in two memory words as the hardware stores it, bits 31 to 16 first (log entry 22). -/
def decodeTableWord (nbits w : Nat) : Option Instr :=
  match decode (wordsOf (BitVec.ofNat 32 (w % 2 ^ nbits))) with
  | .ok (i, _) => some i
  | .error _ => none

end Sys2Proof
end

