-- ==== Sys2Proof/Config.lean ====
section
/-! DEFINITION. What an implementation fixes, and the values the spec leaves open. The open values are opaque
constants: no proof can see them, so a statement proved of them holds whatever they are. -/

namespace Sys2Proof

/-- What the shifter hands on: the shifted word, and the last bit shifted out if a bit was (rule R132). -/
structure ShiftOut where
  res  : Word
  cout : Option Bool
  deriving DecidableEq, Repr, Inhabited

/-- The coprocessors of every SIRC-1: the processing unit and the exception unit (rules R2, R4). A platform may add
optional ones (rule R6). -/
def Config.fixedUnits : List (BitVec 4) := [0, 1]

/-- What a bus read is for. -/
inductive Access where
  | fetch | data | vector
  deriving DecidableEq, Repr

/-- DESIGN CHOICE (log entry 6): what a read of an address answers that the platform neither populates nor refuses,
"any value" (U22). Arguments: the step, the purpose of the read, the address. -/
opaque Config.unmapped : Nat → Access → Address → Word

/-- DESIGN CHOICE (log entry 9): the shifter's output when the count register holds more than 15, a case for
which no source gives a result (rule R131, U5). Arguments: type, operand, count, carry in. -/
opaque Config.longShift : ShiftType → Word → Word → Bool → ShiftOut

/-- DESIGN CHOICE (log entry 10): one less than the vector and type code of the instruction trace fault, the
spec's parameter `trace_fault_vector` in 0x01 to 0x0F (rule R344). -/
opaque Config.traceFaultCode : Fin 15

/-- DESIGN CHOICE (log entry 10): one less than the vector and type code of the level-five conflict, the
spec's parameter `l5_conflict_vector` (rule R346). -/
opaque Config.levelFiveConflictCode : Fin 15

end Sys2Proof
end

