-- ==== Sys2Proof/Machine/State.lean ====
section
/-! DEFINITION. The state of the SIRC-1 as plain data (rules R20 to R53), the reasons a step can stop, and the
machine right after reset. `INVENTORY.md` lists every field with the rule that names it. -/

namespace Sys2Proof.Machine

/-- The registers without a duty of their own: `r1` to `r7` and the halves of the pairs `l`, `a` and `s`
(rules R20, R21, R23). All sixteen bits of a high half are stored (rule R26). -/
structure GenRegs where
  r1 : Word
  r2 : Word
  r3 : Word
  r4 : Word
  r5 : Word
  r6 : Word
  r7 : Word
  lh : Word
  ll : Word
  ah : Word
  al : Word
  sh : Word
  sl : Word
  deriving DecidableEq, Repr

/-- An exception link register: return address, return status register, return level (rules R43, R44). -/
structure LinkReg where
  address : Long
  status  : Word
  level   : Fin 8
  deriving DecidableEq, Repr

/-- The five interrupt lines (rule R350). -/
inductive Line where
  | one | two | three | four | five
  deriving DecidableEq, Repr

/-- One bit for each interrupt line (rules R48, R350). -/
structure Lines where
  one   : Bool
  two   : Bool
  three : Bool
  four  : Bool
  five  : Bool
  deriving DecidableEq, Repr

/-- The values a hardware reset leaves in the registers the spec states no reset value for: its parameter
`reset_register_values` (rule R381, U20). -/
structure ResetValues where
  gen   : GenRegs
  links : Vector LinkReg 8
  cause : Word
  deriving DecidableEq, Repr

/-- What the environment does at one instruction boundary: it may assert the reset input, with the values that
reset leaves open, and it asserts some interrupt lines (rules R350, R380). -/
structure Pins where
  reset : Option ResetValues
  lines : Lines
  deriving DecidableEq, Repr

/-- A range of word addresses, both ends included. -/
structure Region where
  first : Address
  last  : Address
  deriving DecidableEq, Repr

/-- What the platform has at an address (rules R6, R49, R62): memory, memory that drops what is written, or nothing
that answers. -/
inductive MemoryKind where
  | ram | rom | absent
  deriving DecidableEq, Repr

/-- One entry of the memory map (rules R6, R49). -/
structure MapEntry where
  range : Region
  kind  : MemoryKind
  deriving DecidableEq, Repr

/-- The spec's parameter `imm8_extension` (rules R6, R98). -/
inductive Imm8Extension where
  | zero | sign
  deriving DecidableEq, Repr

/-- The spec's parameter `mem_shift_target`: what the shift of a register-form LOAD or STOR applies to
(rules R6, R231). -/
inductive MemShiftTarget where
  | data | offset
  deriving DecidableEq, Repr

/-- The spec's parameter `undocumented_opcode_mode` (rules R6, R178). -/
inductive UndocumentedMode where
  | hardwarePattern | refuse
  deriving DecidableEq, Repr

/-- What rule R6 leaves to the implementation or platform and takes as an argument. It is the same in every state of a
run: no step changes it (log entries 5, 6, 13, 14, 15, 43). -/
structure Platform where
  /-- The predicate `BusError` (rule R64). -/
  busErrors : List Region
  /-- The memory map: the first entry that contains an address says what is there, and an address in no entry holds
  memory (rule R49). -/
  map : List MapEntry
  /-- `present_coprocessors` beside the two that every SIRC-1 has (rules R2, R272). -/
  optionalUnits : List (BitVec 4)
  imm8 : Imm8Extension
  memShift : MemShiftTarget
  undocumented : UndocumentedMode
  deriving DecidableEq, Repr

/-- The machine. -/
structure State where
  /-- The stored bits of the status register; bit 13 (EA) is never stored (rules R30, R35). -/
  sr : Word
  gen : GenRegs
  /-- The program counter pair (rule R41). -/
  ph : Word
  pl : Word
  /-- LR0 to LR7 (rules R43, R44). -/
  links : Vector LinkReg 8
  /-- The cause register (rule R45). -/
  cause : Word
  /-- `current_exception_level` (rule R46). -/
  level : Fin 8
  /-- `waiting_for_exception` (rule R47). -/
  waiting : Bool
  /-- The latched interrupt requests (rule R48). -/
  pending : Lines
  /-- Memory, as the cells that do not read as zero: word address `a` is cells `2a` (bits 15 to 8) and `2a + 1`
  (bits 7 to 0), in rising order (rules R49, R60; log entries 1 and 2). -/
  mem : List Host.Cell
  /-- The parameters of the implementation and the platform (rule R6). -/
  platform : Platform
  /-- The model's own: how many steps were taken. Nothing reads it but the free value of an absent address (log
  entry 6). -/
  tick : Nat
  /-- The environment's events, one entry for each coming step (rule R350; log entry 7). -/
  inputs : List Pins
  deriving DecidableEq, Repr

/-- Why the machine stops. -/
inductive Fault where
  /-- The platform answers a vector-table read with a bus error. Raised by every exception entry, by RSET and
  by a hardware reset. Rule R326 requires the platform not to do so and no source says what would follow
  (U16), so stopping is safe. -/
  | vectorReadBusError
  deriving DecidableEq, Repr

/-- Why an instruction has no meaning. -/
inductive Refusal where
  /-- No meaning has been written for the instruction. Raised by the dispatcher only. Safe. -/
  | notModelled (mnemonic : String)
  /-- AF = 11 in an ALU instruction, "Reserved for future use" (rules R107, R153, U3). Raised by the ALU
  meanings. Safe. -/
  | reservedFlagSource
  /-- Shift type 111, "Reserved for future use" (rule R140, U2). Raised by the meanings that use the
  shifter. Safe. -/
  | reservedShiftType
  /-- A register or short-immediate LOAD with a shift (rules R202, R217, U4). Raised by those two meanings.
  Safe. -/
  | loadWithShift
  /-- LDEA whose destination field names no pair (rules R97, R252, U12). Raised by LDEA. Safe. -/
  | ldeaDestination
  /-- One of the twelve undocumented opcodes where the platform's `undocumented_opcode_mode` is `refuse`
  (rule R178, U1). Raised by those twelve. Safe. -/
  | undocumentedOpcode
  /-- A call to an optional coprocessor that the platform has and this spec gives no operation of (rule R272).
  Raised by the coprocessor calls. Safe. -/
  | optionalUnit
  /-- A call to coprocessor 0, the processing unit (rule R275, U8). Raised by the coprocessor calls. Safe. -/
  | processingUnitCall
  /-- A call of an internal operation of the exception unit (rule R284, U9). Raised by the coprocessor calls.
  Safe. -/
  | internalOperation
  /-- EXCP with a vector below 0x60 in supervisor mode (rule R277, U10). Raised by EXCP. Safe. -/
  | excpVector
  /-- EXCP while an exception is being handled (rule R277, U11). Raised by EXCP. Safe. -/
  | excpNested
  /-- RETE while no exception is being handled (rule R280, U14). Raised by RETE. Safe. -/
  | reteAtLevelZero
  /-- ETFR or ETTR with a link-register number above 7 or with reserved bits set (rules R282, R283, U15).
  Raised by those two. Safe. -/
  | linkParameter
  deriving DecidableEq, Repr

/-- DESIGN CHOICE (log entry 3): the registers at reset, for which no source gives a value. -/
def GenRegs.zero : GenRegs := ⟨0, 0, 0, 0, 0, 0, 0, 0, 0, 0, 0, 0, 0⟩

/-- DESIGN CHOICE (log entry 4): a link register at reset, for which no source gives a value. -/
def LinkReg.zero : LinkReg := ⟨0, 0, 0⟩

def Lines.none : Lines := ⟨false, false, false, false, false⟩

/-- The parameters at their defaults (rule R6), on a platform that refuses no access and has memory everywhere
(DESIGN CHOICE, log entries 5 and 6). -/
def Platform.default : Platform :=
  { busErrors := [], map := [], optionalUnits := [], imm8 := .zero, memShift := .data,
    undocumented := .hardwarePattern }

/-- The machine right after reset (rules R53, R380, R381). The program counter is the reset vector of a memory
in which nothing is listed (log entry 27). -/
def State.reset : State :=
  { sr := 0, gen := GenRegs.zero, ph := 0, pl := 0,
    links := Vector.replicate 8 LinkReg.zero, cause := 0, level := 0, waiting := false,
    pending := Lines.none, mem := [], platform := Platform.default, tick := 0,
    inputs := [] }

end Sys2Proof.Machine
end

