-- ==== Sys2Proof/Machine/Flags.lean ====
section
/-! DEFINITION. The condition flags: where they stand in the status register, the conditions over them, and
every computation that produces them, the shifter's among them (rules R31, R130 to R141, R150, R171 to R176). -/

namespace Sys2Proof.Machine

/-- The four condition flags (rule R31). -/
structure Flags where
  v : Bool
  c : Bool
  n : Bool
  z : Bool
  deriving DecidableEq, Repr

/-- The flags in the order of their bits, V in bit 3 and Z in bit 0 (rule R30). -/
def Flags.bits (f : Flags) : BitVec 4 :=
  BitVec.ofBool f.v ++ BitVec.ofBool f.c ++ BitVec.ofBool f.n ++ BitVec.ofBool f.z

/-- The flags in a status word (rule R30). -/
def srFlags (sr : Word) : Flags :=
  { v := sr.getLsbD 3, c := sr.getLsbD 2, n := sr.getLsbD 1, z := sr.getLsbD 0 }

/-- A status word with its flags replaced and bits 15 to 4 kept (rule R153). -/
def setFlags (sr : Word) (f : Flags) : Word := sr.extractLsb' 4 12 ++ f.bits

/-- `CondHolds` (rule R150). -/
def condHolds (c : Cond) (f : Flags) : Bool :=
  match c with
  | .al => true
  | .eq => f.z
  | .ne => !f.z
  | .cs => f.c
  | .cc => !f.c
  | .ns => f.n
  | .nc => !f.n
  | .os => f.v
  | .oc => !f.v
  | .hi => f.c && !f.z
  | .lo => !f.c || f.z
  | .ge => f.n == f.v
  | .lt => f.n != f.v
  | .gt => !f.z && f.n == f.v
  | .le => f.z || f.n != f.v
  | .nv => false

/-! Arithmetic and logic: a result and the flags that go with it -/

/-- An exact sum that 16-bit two's complement cannot represent. -/
def signedOverflow (t : Int) : Bool := decide (t < -32768 ∨ 32767 < t)

/-- `Add(a, b, cin)` (rules R171, R172): C is the carry out of bit 15. -/
def addFlags (a b : Word) (cin : Bool) : Word × Flags :=
  let full := a.toNat + b.toNat + cin.toNat
  let res := BitVec.ofNat 16 full
  (res, { z := res == 0, n := res.msb, c := decide (0xFFFF < full),
          v := signedOverflow (a.toInt + b.toInt + cin.toNat) })

/-- `Sub(a, b, bin)` (rules R173, R174): C is NOT borrow. -/
def subFlags (a b : Word) (bin : Bool) : Word × Flags :=
  let full : Int := (a.toNat : Int) - b.toNat - bin.toNat
  let res := BitVec.ofInt 16 full
  (res, { z := res == 0, n := res.msb, c := decide (0 ≤ full),
          v := signedOverflow (a.toInt - b.toInt - bin.toNat) })

/-- `Logic(res)` (rule R175): C and V are cleared. -/
def logicFlags (res : Word) : Word × Flags :=
  (res, { z := res == 0, n := res.msb, c := false, v := false })

/-- The ALU functions that produce flags, opcode bits 2 to 0 from 0 to 6 (rule R170). -/
inductive AluFn where
  | add | adc | sub | sbc | and | orr | xor
  deriving DecidableEq, Repr

/-- The result and the flags of an ALU function; `c` is the carry flag before the instruction
(rules R170 to R175). -/
def aluResult (fn : AluFn) (a b : Word) (c : Bool) : Word × Flags :=
  match fn with
  | .add => addFlags a b false
  | .adc => addFlags a b c
  | .sub => subFlags a b false
  | .sbc => subFlags a b (!c)
  | .and => logicFlags (a &&& b)
  | .orr => logicFlags (a ||| b)
  | .xor => logicFlags (a ^^^ b)

/-! The shifter -/

/-- One position of RTL: bit 15 leaves into the carry, the carry enters bit 0 (rule R137). -/
def rotateLeftOnce (x : Word × Bool) : Word × Bool :=
  ((x.1 <<< 1) ||| (BitVec.ofBool x.2).setWidth 16, x.1.msb)

/-- One position of RTR: bit 0 leaves into the carry, the carry enters bit 15 (rule R138). -/
def rotateRightOnce (x : Word × Bool) : Word × Bool :=
  (BitVec.ofBool x.2 ++ x.1.extractLsb' 1 15, x.1.getLsbD 0)

/-- The one-position rotation applied `n` times (rules R137, R138). -/
def rotate (once : Word × Bool → Word × Bool) : Nat → Word × Bool → Word × Bool
  | 0, x => x
  | n + 1, x => rotate once n (once x)

/-- `Shift(st, v, n, cin)` for a count of 0 to 15 (rules R132 to R139); the reserved type has no result
(rule R140). -/
def shiftBy (kind : ShiftType) (v : Word) (n : Nat) (cin : Bool) : Option ShiftOut :=
  match kind with
  | .reserved => none
  | .none => some ⟨v, none⟩
  | .lsl | .asl => some (if n = 0 then ⟨v, none⟩ else ⟨v <<< n, some (v.getLsbD (16 - n))⟩)
  | .lsr => some (if n = 0 then ⟨v, none⟩ else ⟨v >>> n, some (v.getLsbD (n - 1))⟩)
  | .asr => some (if n = 0 then ⟨v, none⟩ else ⟨v.sshiftRight n, some (v.getLsbD (n - 1))⟩)
  | .rtl => some (if n = 0 then ⟨v, none⟩ else
      ⟨(rotate rotateLeftOnce n (v, cin)).1, some (rotate rotateLeftOnce n (v, cin)).2⟩)
  | .rtr => some (if n = 0 then ⟨v, none⟩ else
      ⟨(rotate rotateRightOnce n (v, cin)).1, some (rotate rotateRightOnce n (v, cin)).2⟩)

/-- The shifter at work on count `n` (rules R131, R139): the count of type none is not used, and a count above
15 gives an output the spec leaves open (log entry 9). -/
def shiftOutput (kind : ShiftType) (v : Word) (n : Word) (cin : Bool) : Option ShiftOut :=
  if n.toNat ≤ 15 ∨ kind = .none ∨ kind = .reserved then shiftBy kind v n.toNat cin
  else some (Config.longShift kind v n cin)

/-- `ShiftFlags` (rule R141): `v` is the operand before the shift, `old` the flags before the instruction. V
keeps its value but for ASL (log entry 11). -/
def shiftFlags (kind : ShiftType) (v : Word) (out : ShiftOut) (old : Flags) : Flags :=
  { z := out.res == 0, n := out.res.msb, c := out.cout.getD old.c,
    v := if kind = .asl then v.msb != out.res.msb else old.v }

end Sys2Proof.Machine
end

