-- ==== Sys2Proof/Machine/Ops.lean ====
section
/-! DEFINITION. The named operations over memory, registers and the exception unit. Everything the meanings of
the instructions and the step share stands here once: memory and its canonical form, the register read and
write rules, address arithmetic, taking an exception and returning from one, interrupts, reset and fetch. -/

namespace Sys2Proof.Machine

/-! Named updates of one field -/

def State.withSr (s : State) (x : Word) : State := { s with sr := x }
def State.withGen (s : State) (x : GenRegs) : State := { s with gen := x }
def State.withPh (s : State) (x : Word) : State := { s with ph := x }
def State.withPl (s : State) (x : Word) : State := { s with pl := x }
def State.withLinks (s : State) (x : Vector LinkReg 8) : State := { s with links := x }
def State.withCause (s : State) (x : Word) : State := { s with cause := x }
def State.withLevel (s : State) (x : Fin 8) : State := { s with level := x }
def State.withWaiting (s : State) (x : Bool) : State := { s with waiting := x }
def State.withPending (s : State) (x : Lines) : State := { s with pending := x }
def State.withMem (s : State) (x : List Host.Cell) : State := { s with mem := x }
def State.withTick (s : State) (x : Nat) : State := { s with tick := x }
def State.withInputs (s : State) (x : List Pins) : State := { s with inputs := x }

/-! Memory: cells in rising order, none holding the value an unlisted cell reads as (log entries 1 and 2) -/

/-- What a cell that no entry lists reads as. DESIGN CHOICE (log entry 1). -/
def Memory.unlisted : Byte := 0

/-- How many cells the 2^24 words of the address space take (rule R60). -/
def Memory.size : Nat := 2 ^ 25

/-- The cells from number `low` on are in canonical form: numbers strictly rising, inside the address space, no
entry equal to what an unlisted cell reads as. -/
def Memory.wfFrom (low : Nat) : List Host.Cell → Bool
  | [] => true
  | (k, b) :: rest => decide (low ≤ k) && decide (k < Memory.size) && b != Memory.unlisted
      && Memory.wfFrom (k + 1) rest

/-- The canonical form of memory. -/
def Memory.wf (m : List Host.Cell) : Bool := Memory.wfFrom 0 m

/-- One cell. -/
def Memory.byte : List Host.Cell → Nat → Byte
  | [], _ => Memory.unlisted
  | (k, b) :: rest, a =>
      if a < k then Memory.unlisted else if a = k then b else Memory.byte rest a

/-- Memory with one cell replaced, in canonical form if it was. -/
def Memory.setByte : List Host.Cell → Nat → Byte → List Host.Cell
  | [], a, v => if v = Memory.unlisted then [] else [(a, v)]
  | (k, b) :: rest, a, v =>
      if a < k then (if v = Memory.unlisted then (k, b) :: rest else (a, v) :: (k, b) :: rest)
      else if a = k then (if v = Memory.unlisted then rest else (k, v) :: rest)
      else (k, b) :: Memory.setByte rest a v

/-- The cell that holds bits 15 to 8 of a word; bits 7 to 0 are in the next one (log entry 2). -/
def highCell (a : Address) : Nat := 2 * a.toNat

/-- The 16-bit word at a word address (rules R49, R60, R62). -/
def Memory.word (m : List Host.Cell) (a : Address) : Word :=
  Memory.byte m (highCell a) ++ Memory.byte m (highCell a + 1)

/-- Memory with the word at an address replaced; there are no byte enables (rule R63). -/
def Memory.setWord (m : List Host.Cell) (a : Address) (v : Word) : List Host.Cell :=
  Memory.setByte (Memory.setByte m (highCell a) (v.extractLsb' 8 8)) (highCell a + 1) (v.extractLsb' 0 8)

/-- The range takes in the address. -/
def Region.contains (a : Address) (r : Region) : Bool := decide (r.first ≤ a) && decide (a ≤ r.last)

/-- `BusError(addr)`: the platform refuses the access (rule R64). -/
def State.busError (s : State) (a : Address) : Bool :=
  s.platform.busErrors.any (Region.contains a)

/-- What the platform has at an address (rules R6, R49; log entry 6). -/
def State.kindAt (s : State) (a : Address) : MemoryKind :=
  match s.platform.map.find? fun e => Region.contains a e.range with
  | some e => e.kind
  | none => .ram

/-- A bus read that is not refused (rule R62): an absent address answers any value (U22, log entry 6). -/
def State.busRead (s : State) (k : Access) (a : Address) : Word :=
  match s.kindAt a with
  | .ram | .rom => Memory.word s.mem a
  | .absent => Config.unmapped s.tick k a

/-- A bus write that is not refused (rule R63): ROM and absent addresses drop it (U22, log entry 6). -/
def State.busWrite (s : State) (a : Address) (v : Word) : State :=
  match s.kindAt a with
  | .ram => s.withMem (Memory.setWord s.mem a v)
  | .rom | .absent => s

/-! Addresses and the program counter -/

/-- `Addr(h, l)`: bits 15 to 8 of the high register never reach the bus (rules R25, R26). -/
def addressOf (high low : Word) : Address := high.extractLsb' 0 8 ++ low

/-- The program counter as one 32-bit value, `ph` in bits 31 to 16 (rules R9, R43). -/
def State.pc (s : State) : Long := s.ph ++ s.pl

def State.withPc (s : State) (target : Long) : State :=
  (s.withPh (target.extractLsb' 16 16)).withPl (target.extractLsb' 0 16)

/-- The program counter past a fetched instruction; `ph` takes no part (rules R41, R65). -/
def State.advance (s : State) : State := s.withPl (s.pl + 2)

/-! The status register -/

/-- P, bit 8 (rule R33). -/
def State.isProtected (s : State) : Bool := s.sr.getLsbD 8

/-- A, bit 14 (rule R36). -/
def State.trapsOverflow (s : State) : Bool := s.sr.getLsbD 14

/-- T, bit 15 (rule R37). -/
def State.tracing (s : State) : Bool := s.sr.getLsbD 15

/-- The full status register, bit 13 computed from the exception level (rules R27, R35). -/
def State.statusWord (s : State) : Word :=
  (s.sr &&& 0xDFFF) ||| (if s.level = 0 then 0 else 0x2000)

/-- What stays of a value written to the status register: bit 13 has no storage, and in protected mode only
the low byte is written (rules R28, R35). -/
def State.filterSr (s : State) (v : Word) : Word :=
  if s.isProtected then (s.sr &&& 0xFF00) ||| (v &&& 0x00FF) else v &&& 0xDFFF

/-! Registers -/

/-- The high register of a pair (rule R23). -/
def Pair.high : Pair → Reg
  | .l => .lh | .a => .ah | .s => .sh | .p => .ph

/-- The low register of a pair (rule R23). -/
def Pair.low : Pair → Reg
  | .l => .ll | .a => .al | .s => .sl | .p => .pl

/-- The registers protected mode may not write (rule R28). -/
def Reg.isHigh (r : Reg) : Bool :=
  match r with
  | .lh | .ah | .sh | .ph => true
  | .sr | .r1 | .r2 | .r3 | .r4 | .r5 | .r6 | .r7 | .ll | .al | .sl | .pl => false

/-- `x[i]`: the register read rule (rule R27). -/
def State.read (s : State) (r : Reg) : Word :=
  match r with
  | .sr => if s.isProtected then s.sr &&& 0x00FF else s.statusWord
  | .r1 => s.gen.r1
  | .r2 => s.gen.r2
  | .r3 => s.gen.r3
  | .r4 => s.gen.r4
  | .r5 => s.gen.r5
  | .r6 => s.gen.r6
  | .r7 => s.gen.r7
  | .lh => s.gen.lh
  | .ll => s.gen.ll
  | .ah => s.gen.ah
  | .al => s.gen.al
  | .sh => s.gen.sh
  | .sl => s.gen.sl
  | .ph => s.ph
  | .pl => s.pl

/-- `x[i] <- v` without its privilege test: the register write rule (rule R28). -/
def State.write (s : State) (r : Reg) (v : Word) : State :=
  match r with
  | .sr => s.withSr (s.filterSr v)
  | .r1 => s.withGen { s.gen with r1 := v }
  | .r2 => s.withGen { s.gen with r2 := v }
  | .r3 => s.withGen { s.gen with r3 := v }
  | .r4 => s.withGen { s.gen with r4 := v }
  | .r5 => s.withGen { s.gen with r5 := v }
  | .r6 => s.withGen { s.gen with r6 := v }
  | .r7 => s.withGen { s.gen with r7 := v }
  | .lh => s.withGen { s.gen with lh := v }
  | .ll => s.withGen { s.gen with ll := v }
  | .ah => s.withGen { s.gen with ah := v }
  | .al => s.withGen { s.gen with al := v }
  | .sh => s.withGen { s.gen with sh := v }
  | .sl => s.withGen { s.gen with sl := v }
  | .ph => s.withPh v
  | .pl => s.withPl v

/-- The privilege test of the register write rule, made before anything changes (rules R28, R160). -/
def State.forbidsWrite (s : State) (r : Reg) : Bool := s.isProtected && Reg.isHigh r

/-! Why an instruction does not complete -/

/-- The faults an instruction or the exception unit raises (rules R334, R344, R346). A double fault is not
raised: fault entry makes one of any fault at level 7 (rule R347). -/
inductive FaultKind where
  | bus | alignment | segmentOverflow | invalidOpcode | privilegeViolation
  | instructionTrace | levelFiveConflict
  deriving DecidableEq, Repr

/-- What `raise` hands to fault entry: the kind, the phase code, the bus address (rules R333, R335). -/
structure FaultInfo where
  kind  : FaultKind
  phase : BitVec 3
  bus   : Address
  deriving DecidableEq, Repr

/-- Why an instruction does not complete: it raises a fault, it has no meaning, or the machine stops. -/
inductive Stop where
  | raise (f : FaultInfo)
  | refuse (r : Refusal)
  | halt (f : Fault)
  deriving DecidableEq, Repr

def raiseIf (bad : Bool) (f : FaultInfo) : Except Stop Unit :=
  if bad then .error (.raise f) else .ok ()

def refuseIf (bad : Bool) (r : Refusal) : Except Stop Unit :=
  if bad then .error (.refuse r) else .ok ()

/-- PrivilegeViolation, phase 3 (rule R342). -/
def privilegeViolation : FaultInfo := ⟨.privilegeViolation, 3, 0⟩

/-- InvalidOpcode, phase 3 (rule R345). -/
def invalidOpcode : FaultInfo := ⟨.invalidOpcode, 3, 0⟩

/-- SegmentOverflow of an address calculation, phase 3 (rules R68, R343). -/
def addressOverflow : FaultInfo := ⟨.segmentOverflow, 3, 0⟩

/-! Address arithmetic and data accesses -/

/-- `SegAdd(low, delta)`: modulo 2^16, or SegmentOverflow when SR.A traps (rules R68, R69). -/
def State.segAdd (s : State) (low : Word) (delta : Int) : Except Stop Word :=
  let t : Int := (low.toNat : Int) + delta
  if (t < 0 ∨ 0xFFFF < t) ∧ s.trapsOverflow then .error (.raise addressOverflow)
  else .ok (BitVec.ofInt 16 t)

/-- `EA` from the high register of a pair, a low word and a signed offset (rule R68). -/
def State.effective (s : State) (pair : Pair) (low off : Word) : Except Stop Address := do
  let l ← s.segAdd low off.toInt
  .ok (addressOf (s.read (Pair.high pair)) l)

/-- `MemRead` of a data word (rules R62, R340). -/
def State.loadWord (s : State) (ea : Address) : Except Stop Word :=
  if s.busError ea then .error (.raise ⟨.bus, 4, ea⟩) else .ok (s.busRead .data ea)

/-- `MemWrite` of a data word; a refused write changes nothing (rules R63, R64). -/
def State.storeWord (s : State) (ea : Address) (v : Word) : Except Stop State :=
  if s.busError ea then .error (.raise ⟨.bus, 4, ea⟩)
  else .ok (s.busWrite ea v)

/-! Taking an exception, and returning from one -/

/-- The word address of a vector: twice its id, in segment 0 (rules R72, R326). -/
def vectorAddress (v : BitVec 8) : Address := BitVec.ofNat 24 (2 * v.toNat)

/-- `ReadVector(v)`: the word at the even address becomes `ph`, the next one `pl` (rule R326). -/
def State.readVector (s : State) (v : BitVec 8) : Except Fault Long :=
  let a := vectorAddress v
  if s.busError a || s.busError (a + 1) then .error .vectorReadBusError
  else .ok (s.busRead .vector a ++ s.busRead .vector (a + 1))

/-- `ExceptionEntry(L, v, ra)` (rule R330), written with `n` = L - 1, the number of the link register that
saves: the return address, the full status register and the level are saved, P and T are cleared, the level
becomes L, waiting ends, and the program counter is read from the vector. -/
def State.exceptionEntry (s : State) (n : Fin 7) (v : BitVec 8) (ra : Long) : Except Fault State :=
  match s.readVector v with
  | .error e => .error e
  | .ok target =>
      .ok { s with
        links := s.links.set n.castSucc ⟨ra, s.statusWord, s.level⟩
        sr := s.sr &&& 0x7EFF
        level := n.succ
        waiting := false
        ph := target.extractLsb' 16 16
        pl := target.extractLsb' 0 16 }

/-- The type code of a fault, which is also its vector id (rule R334). -/
def FaultKind.code (k : FaultKind) : BitVec 4 :=
  match k with
  | .bus => 1
  | .alignment => 2
  | .segmentOverflow => 3
  | .invalidOpcode => 4
  | .privilegeViolation => 5
  | .instructionTrace => BitVec.ofNat 4 (Config.traceFaultCode.val + 1)
  | .levelFiveConflict => BitVec.ofNat 4 (Config.levelFiveConflictCode.val + 1)

/-- The type code that fault entry records: 6, double fault, when a fault is already being handled
(rules R333, R347). -/
def State.faultCode (s : State) (k : FaultKind) : BitVec 4 :=
  if s.level = 7 then 6 else FaultKind.code k

/-- The metadata word of LR7: phase, double-fault flag, type, and for a double fault the type of the fault that
was being handled (rules R44, R333, R347). -/
def State.faultStatus (s : State) (f : FaultInfo) : Word :=
  let double : Bool := s.level = 7
  let original : BitVec 4 := if double then (s.links[7]).status.extractLsb' 4 4 else 0
  (0 : BitVec 4) ++ original ++ s.faultCode f.kind ++ BitVec.ofBool double ++ f.phase

/-- `FaultEntry` (rules R333, R344, R346): entry at level 7, then the metadata in LR7, whose return level is left
alone, and the cause register. `ra` is the return address the fault saves. -/
def State.faultEntry (s : State) (ra : Long) (f : FaultInfo) : Except Fault State :=
  let v : BitVec 8 := (0 : BitVec 4) ++ s.faultCode f.kind
  match s.exceptionEntry 6 v ra with
  | .error e => .error e
  | .ok t =>
      let metadata : LinkReg := ⟨f.bus.setWidth 32, s.faultStatus f, (s.links[7]).level⟩
      .ok ((t.withLinks (t.links.set 7 metadata)).withCause ((0x1E : BitVec 8) ++ v))

/-- RETE from link register `n` (rule R280): program counter, status register and level come back; bit 13 of
the saved status has no storage. -/
def State.returnFrom (s : State) (n : Fin 8) : State :=
  let lr := s.links[n]
  ((s.withPc lr.address).withSr (lr.status &&& 0xDFFF)).withLevel lr.level

/-! One instruction -/

/-- A fault as the outcome of a step: the machine as it was before the instruction, with the fault entered
(rules R332, R333). -/
def takeFault (s : State) (ra : Long) (f : FaultInfo) : Host.Outcome State Fault Refusal :=
  match s.faultEntry ra f with
  | .ok t => .next t
  | .error e => .fault e

/-- The end of an instruction that began in state `s`, its address in `ph:pl` (rule R161): a completed one is
followed by the trace fault if T was set when it began, and a raised fault cancels everything it did. -/
def finish (s : State) (r : Except Stop State) : Host.Outcome State Fault Refusal :=
  match r with
  | .ok t => if s.tracing then takeFault t t.pc ⟨.instructionTrace, 5, 0⟩ else .next t
  | .error (.raise f) => takeFault s s.pc f
  | .error (.refuse e) => .refused e
  | .error (.halt e) => .fault e

/-- One instruction whose fetch has succeeded: the program counter moves past it, and its body runs if its
condition holds (rules R150, R151, R161). -/
def runInstr (c : Cond) (s : State) (body : State → Except Stop State) : Host.Outcome State Fault Refusal :=
  finish s (if condHolds c (srFlags s.sr) then body s.advance else .ok s.advance)

/-- The instruction fetch (rules R65, R66, R70, and the first four tests of R162). -/
def State.fetch (s : State) : Except FaultInfo Long :=
  let x := addressOf s.ph s.pl
  let y := addressOf s.ph (s.pl + 1)
  if s.pl.getLsbD 0 then .error ⟨.alignment, 0, 0⟩
  else if s.busError x then .error ⟨.bus, 0, x⟩
  else if s.busError y then .error ⟨.bus, 1, y⟩
  else if s.pl = 0xFFFE ∧ s.trapsOverflow then .error ⟨.segmentOverflow, 1, 0⟩
  else .ok (s.busRead .fetch x ++ s.busRead .fetch y)

/-! Interrupts and reset: what happens between instructions -/

/-- The value of one line (rule R350). -/
def Lines.get (x : Lines) (k : Line) : Bool :=
  match k with
  | .one => x.one | .two => x.two | .three => x.three | .four => x.four | .five => x.five

/-- `Enabled(k)`: E1 to E4, and always for line 5 (rule R350). -/
def State.lineEnabled (s : State) (k : Line) : Bool :=
  match k with
  | .one => s.sr.getLsbD 9
  | .two => s.sr.getLsbD 10
  | .three => s.sr.getLsbD 11
  | .four => s.sr.getLsbD 12
  | .five => true

/-- The link register of line `k`, one less than its exception level 7 - k (rule R350). -/
def Line.link (k : Line) : Fin 7 :=
  match k with
  | .one => 5 | .two => 4 | .three => 3 | .four => 2 | .five => 1

/-- The vector of line `k`, 0x10 times its number (rule R350). -/
def Line.vector (k : Line) : BitVec 8 :=
  match k with
  | .one => 0x10 | .two => 0x20 | .three => 0x30 | .four => 0x40 | .five => 0x50

/-- Line 1 asserted while enabled and while its own handler runs (rules R346, R351). -/
def State.conflict (s : State) (asserted : Lines) : Bool :=
  asserted.one && s.lineEnabled .one && s.level == 6

/-- `OnAssert` for every asserted line (rule R351): a disabled line is dropped, an enabled one is latched, and the
assertion that raises the level-five conflict is consumed. -/
def State.latch (s : State) (asserted : Lines) : State :=
  let take (k : Line) : Bool := s.pending.get k || (asserted.get k && s.lineEnabled k)
  s.withPending
    { one := s.pending.one || (asserted.one && s.lineEnabled .one && !(s.conflict asserted)),
      two := take .two, three := take .three, four := take .four, five := take .five }

/-- A line that may be entered now (rule R352). -/
def State.eligible (s : State) (k : Line) : Bool :=
  s.pending.get k && s.lineEnabled k && decide (s.level < (Line.link k).succ)

/-- The eligible line of the highest level (rule R352). -/
def State.candidate (s : State) : Option Line :=
  if s.eligible .one then some .one
  else if s.eligible .two then some .two
  else if s.eligible .three then some .three
  else if s.eligible .four then some .four
  else if s.eligible .five then some .five
  else none

/-- The latches with that of line `k` cleared. -/
def Lines.clear (x : Lines) (k : Line) : Lines :=
  match k with
  | .one => { x with one := false }
  | .two => { x with two := false }
  | .three => { x with three := false }
  | .four => { x with four := false }
  | .five => { x with five := false }

/-- `HardwareExceptionEntry(k)` (rule R353), with the cause register of rule R271. -/
def hardwareException (s : State) (k : Line) : Host.Outcome State Fault Refusal :=
  match (s.withPending (s.pending.clear k)).exceptionEntry (Line.link k) (Line.vector k) s.pc with
  | .error e => .fault e
  | .ok t => .next (t.withCause ((0x1F : BitVec 8) ++ Line.vector k))

/-- `HardwareReset` (rules R380, R381). The registers without a stated value take those the environment's reset
event brings (log entry 8). -/
def hardwareReset (s : State) (v : ResetValues) : Host.Outcome State Fault Refusal :=
  match s.readVector 0 with
  | .error e => .fault e
  | .ok target =>
      .next ({ s with sr := 0, gen := v.gen, links := v.links, cause := v.cause, level := 0,
                      waiting := false, pending := Lines.none }.withPc target)

/-- Nothing happens at the pins: what the trace says once it is used up (log entry 7). -/
def Pins.idle : Pins := ⟨none, Lines.none⟩

/-- The pin events of this boundary, and the machine with them taken from the trace and the step counted (log
entries 6 and 7). -/
def State.takePins (s : State) : Pins × State :=
  match s.inputs with
  | [] => (Pins.idle, s.withTick (s.tick + 1))
  | p :: rest => (p, (s.withInputs rest).withTick (s.tick + 1))

/-- What an instruction boundary comes to: the step is over, or an instruction is to be fetched. -/
inductive Boundary where
  | done (o : Host.Outcome State Fault Refusal)
  | run (s : State)

/-- The exception unit between two instructions (rules R161 steps 1 and 2, R346, R351, R352, R380), in the
order reset, assertions, level-five conflict, pending interrupts, wait state (log entry 24). -/
def State.boundary (s : State) : Boundary :=
  let pins := s.takePins.1
  let s := s.takePins.2
  match pins.reset with
  | some v => .done (hardwareReset s v)
  | none =>
      let t := s.latch pins.lines
      if s.conflict pins.lines then .done (takeFault t t.pc ⟨.levelFiveConflict, 0, 0⟩)
      else
        match t.candidate with
        | some k => .done (hardwareException t k)
        | none => if t.waiting then .done (.next t) else .run t

end Sys2Proof.Machine
end

