-- ==== Sys2Proof/Machine/Operands.lean ====
section
/-! DEFINITION. The operand forms and the shared bodies of the instruction families: the shift postamble, the
ALU template (rule R177), the memory accesses (rules R231 to R241), the control-flow sums (rules R251 to R259) and
the coprocessor call (rules R270 to R284). A body runs on the state whose program counter has moved past the
instruction; `runInstr` wraps it. -/

namespace Sys2Proof.Machine

/-! The shift postamble -/

/-- `ShiftCount(so, sa)`, the literal or the whole register (rule R131). -/
def State.shiftCount (s : State) (c : ShiftCount) : Word :=
  match c with
  | .lit n => n.setWidth 16
  | .reg r => s.read r

/-- The shifter's output for operand `v`; the reserved type is refused (rules R131, R140). -/
def State.shifted (s : State) (sh : Shift) (v : Word) : Except Stop ShiftOut :=
  match shiftOutput sh.kind v (s.shiftCount sh.count) (srFlags s.sr).c with
  | some out => .ok out
  | none => .error (.refuse .reservedShiftType)

/-- `MemShift`: a word of a memory instruction through the shifter, flags left alone; every type but the reserved one,
which the instructions refuse, has an output (rule R231). -/
def State.shiftedWord (s : State) (sh : Shift) (v : Word) : Word :=
  match shiftOutput sh.kind v (s.shiftCount sh.count) (srFlags s.sr).c with
  | some out => out.res
  | none => v

/-- The data word of a memory instruction, shifted unless the platform's shift is for the offset (rule R231; log
entry 14). -/
def State.dataWord (s : State) (sh : Shift) (v : Word) : Word :=
  match s.platform.memShift with
  | .data => s.shiftedWord sh v
  | .offset => v

/-- The offset of a memory instruction, shifted if the platform's shift is for the offset (rule R231; log
entry 14). -/
def State.offsetWord (s : State) (sh : Shift) (off : Word) : Word :=
  match s.platform.memShift with
  | .data => off
  | .offset => s.shiftedWord sh off

/-- The 8-bit constant of the short immediate format as an operand, by `imm8_extension` (rule R98; log entry 13). -/
def State.extend8 (s : State) (v : BitVec 8) : Word :=
  match s.platform.imm8 with
  | .zero => v.setWidth 16
  | .sign => v.signExtend 16

/-! The ALU template -/

/-- `UpdateFlags` (rule R153). -/
def State.updateFlags (s : State) (af : FlagSource) (aluFlags shifterFlags : Flags) : Except Stop State :=
  match af with
  | .keep => .ok s
  | .alu => .ok (s.withSr (setFlags s.sr aluFlags))
  | .shift => .ok (s.withSr (setFlags s.sr shifterFlags))
  | .reserved => .error (.refuse .reservedFlagSource)

/-- A result to its destination; a test instruction has none (rule R177). -/
def State.writeBack (s : State) (dst : Option Reg) (v : Word) : State :=
  match dst with
  | some r => s.write r v
  | none => s

def State.forbidsBack (s : State) (dst : Option Reg) : Bool :=
  match dst with
  | some r => s.forbidsWrite r
  | none => false

/-- The common template of the ALU instructions with a flag update (rules R154, R177): `v` is the first operand
before the shifter and `a` the shifter's output for it, `b` the second operand. Everything is computed and the
privilege test made before the result state is given. -/
def aluStep (fn : AluFn) (dst : Option Reg) (af : FlagSource) (kind : ShiftType) (v : Word) (a : ShiftOut)
    (b : Word) (s : State) : Except Stop State := do
  let old := srFlags s.sr
  let r := aluResult fn a.res b old.c
  let t ← (s.writeBack dst r.1).updateFlags af r.2 (shiftFlags kind v a old)
  raiseIf (s.forbidsBack dst) privilegeViolation
  .ok t

/-- The destination of a save instruction, or none for its test variant (rules R170, R178). -/
def saveTo (save : Bool) (r : Reg) : Option Reg := if save then some r else none

/-- ALU instruction, immediate format (rules R155, R170, R180 to R195). -/
def aluImmBody (fn : AluFn) (save : Bool) (f : ImmForm FlagSource) (s : State) : Except Stop State :=
  aluStep fn (saveTo save f.reg) f.af .none (s.read f.reg) ⟨s.read f.reg, none⟩ f.imm s

/-- ALU instruction, short immediate format: the destination is shifted, the extended constant is not
(rules R98, R130, R170). -/
def aluShortBody (fn : AluFn) (save : Bool) (f : ShortForm) (s : State) : Except Stop State := do
  let a ← s.shifted f.shift (s.read f.reg)
  aluStep fn (saveTo save f.reg) f.af f.shift.kind (s.read f.reg) a (s.extend8 f.imm) s

/-- ALU instruction, register format: `r2` is shifted, `r3` is not (rules R130, R170). -/
def aluRegBody (fn : AluFn) (save : Bool) (f : RegForm FlagSource) (s : State) : Except Stop State := do
  let a ← s.shifted f.shift (s.read f.r2)
  aluStep fn (saveTo save f.r1) f.af f.shift.kind (s.read f.r2) a (s.read f.r3) s

/-- One of the twelve undocumented opcodes: its body, unless the platform's mode declines it (rule R178; log
entry 15). -/
def undocumented (body : State → Except Stop State) (s : State) : Except Stop State := do
  refuseIf (s.platform.undocumented == .refuse) .undocumentedOpcode
  body s

/-- LOAD of a value into a register (rule R176): no flags, AF = 11 refused (rules R156, R187, U3). -/
def moveBody (dst : Reg) (af : FlagSource) (v : Word) (s : State) : Except Stop State := do
  refuseIf (af == .reserved) .reservedFlagSource
  raiseIf (s.forbidsWrite dst) privilegeViolation
  .ok (s.write dst v)

/-- LOAD with shift fields: a shift is refused (rules R202, R217, U4). -/
def moveUnshiftedBody (dst : Reg) (af : FlagSource) (kind : ShiftType) (v : Word) (s : State) :
    Except Stop State := do
  refuseIf (kind != .none) .loadWithShift
  moveBody dst af v s

/-! Memory accesses -/

/-- STOR, indirect (rules R234, R235): `off` is the offset, `sh` the shift. -/
def storeIndirect (data : Reg) (pair : Pair) (off : Word) (sh : Shift) (s : State) : Except Stop State := do
  refuseIf (sh.kind == .reserved) .reservedShiftType
  let ea ← s.effective pair (s.read (Pair.low pair)) (s.offsetWord sh off)
  s.storeWord ea (s.dataWord sh (s.read data))

/-- STOR, pre-decrement (rules R71, R236, R237): the data is read before the decrement, which is written last and
only to the low register. -/
def storePreDecrement (data : Reg) (pair : Pair) (off : Word) (sh : Shift) (s : State) : Except Stop State := do
  refuseIf (sh.kind == .reserved) .reservedShiftType
  let low ← s.segAdd (s.read (Pair.low pair)) (-1)
  let ea ← s.effective pair low (s.offsetWord sh off)
  let t ← s.storeWord ea (s.dataWord sh (s.read data))
  .ok (t.write (Pair.low pair) low)

/-- LOAD, indirect (rules R238, R239, R242): the privilege test comes before the access, a shift of the data after
it. -/
def loadIndirect (dst : Reg) (pair : Pair) (off : Word) (sh : Shift) (s : State) : Except Stop State := do
  refuseIf (sh.kind == .reserved) .reservedShiftType
  raiseIf (s.forbidsWrite dst) privilegeViolation
  let ea ← s.effective pair (s.read (Pair.low pair)) (s.offsetWord sh off)
  let v ← s.loadWord ea
  .ok (s.write dst (s.dataWord sh v))

/-- LOAD, post-increment (rules R71, R240, R241): the address comes from the pair before the increment, and the
low register is written after the destination. -/
def loadPostIncrement (dst : Reg) (pair : Pair) (off : Word) (sh : Shift) (s : State) : Except Stop State := do
  refuseIf (sh.kind == .reserved) .reservedShiftType
  raiseIf (s.forbidsWrite dst) privilegeViolation
  let ea ← s.effective pair (s.read (Pair.low pair)) (s.offsetWord sh off)
  let low ← s.segAdd (s.read (Pair.low pair)) 1
  let v ← s.loadWord ea
  .ok ((s.write dst (s.dataWord sh v)).write (Pair.low pair) low)

/-- The immediate forms have no shift fields (rule R231). -/
def noShift : Shift := ⟨.lit 0, .none⟩

/-! Control flow -/

/-- The destination pair of LDEA: bits 2 to 1 of a register field whose bit 3 is set (rules R97, R252). -/
def ldeaPair (r : Reg) : Except Stop Pair :=
  match r with
  | .lh | .ll => .ok .l
  | .ah | .al => .ok .a
  | .sh | .sl => .ok .s
  | .ph | .pl => .ok .p
  | .sr | .r1 | .r2 | .r3 | .r4 | .r5 | .r6 | .r7 => .error (.refuse .ldeaDestination)

/-- LDEA (rules R251 to R253, R261). -/
def ldeaBody (dest : Reg) (src : Pair) (off : Word) (s : State) : Except Stop State := do
  let d ← ldeaPair dest
  raiseIf s.isProtected privilegeViolation
  let low ← s.segAdd (s.read (Pair.low src)) off.toInt
  .ok ((s.write (Pair.high d) (s.read (Pair.high src))).write (Pair.low d) low)

/-- BRAN (rules R254, R255): only `pl` is written. -/
def branBody (base : Pair) (off : Word) (s : State) : Except Stop State := do
  let low ← s.segAdd (s.read (Pair.low base)) off.toInt
  .ok (s.write .pl low)

/-- LJSR (rules R256, R258, R260, R261): `l` takes the address of the next instruction, `p` the target. -/
def ljsrBody (src : Pair) (off : Word) (s : State) : Except Stop State := do
  raiseIf s.isProtected privilegeViolation
  let low ← s.segAdd (s.read (Pair.low src)) off.toInt
  .ok ((((s.write .lh s.ph).write .ll s.pl).write .ph (s.read (Pair.high src))).write .pl low)

/-- BRSR (rules R257, R259): only `ll` and `pl` are written. -/
def brsrBody (base : Pair) (off : Word) (s : State) : Except Stop State := do
  let low ← s.segAdd (s.read (Pair.low base)) off.toInt
  .ok ((s.write .ll s.pl).write .pl low)

/-! The coprocessor call -/

/-- A vector read that the platform refuses stops the machine (rule R326, U16). -/
def orHalt {α : Type} (r : Except Fault α) : Except Stop α :=
  match r with
  | .ok x => .ok x
  | .error e => .error (.halt e)

/-- EXCP (rules R276, R277, R274 steps 7 and 8): entry at level 1 through vector `par`, returning to the next
instruction. -/
def excpOperation (par : BitVec 8) (s : State) : Except Stop State := do
  raiseIf (decide (par < 0x60) && s.isProtected) privilegeViolation
  refuseIf (decide (par < 0x60)) .excpVector
  refuseIf (s.level != 0) .excpNested
  orHalt (s.exceptionEntry 0 par s.pc)

/-- WAIT (rule R279). -/
def waitOperation (s : State) : Except Stop State := .ok (s.withWaiting true)

/-- RETE (rule R280): link register `level - 1`. -/
def reteOperation (s : State) : Except Stop State :=
  if s.level = 0 then .error (.refuse .reteAtLevelZero) else .ok (s.returnFrom (s.level - 1))

/-- RSET (rules R281, R381, R382): the status register and the level are cleared, the program counter is read from
vector 0, and nothing else changes. -/
def rsetOperation (s : State) : Except Stop State := do
  let target ← orHalt (s.readVector 0)
  .ok (((s.withSr 0).withLevel 0).withPc target)

/-- Bits 3 and 7 to 6 of the parameter of ETFR and ETTR must be 0 (rules R274 step 10, R282). -/
def badLinkParameter (par : BitVec 8) : Bool := par.getLsbD 3 || par.extractLsb' 6 2 != 0

/-- The link register that the parameter of ETFR and ETTR names (rule R282). -/
def linkIndex (par : BitVec 8) : Fin 8 := (par.extractLsb' 0 3).toFin

/-- ETFR (rule R282): bit 4 moves the return address to `ah:al`, bit 5 the return status to `r7`. -/
def etfrOperation (par : BitVec 8) (s : State) : Except Stop State := do
  refuseIf (badLinkParameter par) .linkParameter
  let lr := s.links[linkIndex par]
  let t := if par.getLsbD 4 then
      (s.write .ah (lr.address.extractLsb' 16 16)).write .al (lr.address.extractLsb' 0 16) else s
  .ok (if par.getLsbD 5 then t.write .r7 lr.status else t)

/-- ETTR (rule R283): bit 4 moves `ah:al` to the return address, bit 5 `r7` to the return status; the return
level is not transferred (rule R43). -/
def ettrOperation (par : BitVec 8) (s : State) : Except Stop State := do
  refuseIf (badLinkParameter par) .linkParameter
  let lr := s.links[linkIndex par]
  let a := if par.getLsbD 4 then { lr with address := s.read .ah ++ s.read .al } else lr
  let b := if par.getLsbD 5 then { a with status := s.read .r7 } else a
  .ok (s.withLinks (s.links.set (linkIndex par) b))

/-- The operations of the exception unit (rules R271, R272, R274 steps 5 and 6, R284). -/
def exceptionUnit (opc : BitVec 4) (par : BitVec 8) (s : State) : Except Stop State :=
  match opc.toNat with
  | 0x0 => .error (.refuse .internalOperation)
  | 0x1 => excpOperation par s
  | 0x9 => waitOperation s
  | 0xA => reteOperation s
  | 0xB => rsetOperation s
  | 0xC => etfrOperation par s
  | 0xD => ettrOperation par s
  | 0xE => .error (.refuse .internalOperation)
  | 0xF => .error (.refuse .internalOperation)
  | _ => .error (.raise invalidOpcode)

/-- The coprocessor is present (rules R6, R272). -/
def State.hasUnit (s : State) (id : BitVec 4) : Bool :=
  Config.fixedUnits.contains id || s.platform.optionalUnits.contains id

/-- `COP(v)` (rules R270 to R275): coprocessor id, operation and parameter are the fields of the call value, and the
tests come in the order of rule R274. -/
def coprocessorCall (v : Word) (s : State) : Except Stop State := do
  let id := v.extractLsb' 12 4
  let opc := v.extractLsb' 8 4
  raiseIf (s.isProtected && decide (8 ≤ opc)) privilegeViolation
  refuseIf (id == 0) .processingUnitCall
  raiseIf (!s.hasUnit id) invalidOpcode
  refuseIf (id != 1) .optionalUnit
  exceptionUnit opc (v.extractLsb' 0 8) (s.withCause v)

end Sys2Proof.Machine
end

