-- ==== Sys2Proof/Machine/AluImm.lean ====
section
/-! DEFINITION. The ALU instructions of the immediate format, opcodes 0x00 to 0x0E (rules R170 to R178, R180 to
R194). -/

namespace Sys2Proof.Machine

/-- ADDI, opcode 0x00 (rule R180). -/
def execAddi (f : ImmForm FlagSource) (s : State) : Host.Outcome State Fault Refusal :=
  runInstr f.cond s (aluImmBody .add true f)

/-- ADCI, opcode 0x01 (rule R181). -/
def execAdci (f : ImmForm FlagSource) (s : State) : Host.Outcome State Fault Refusal :=
  runInstr f.cond s (aluImmBody .adc true f)

/-- SUBI, opcode 0x02 (rule R182). -/
def execSubi (f : ImmForm FlagSource) (s : State) : Host.Outcome State Fault Refusal :=
  runInstr f.cond s (aluImmBody .sub true f)

/-- SBCI, opcode 0x03 (rule R183). -/
def execSbci (f : ImmForm FlagSource) (s : State) : Host.Outcome State Fault Refusal :=
  runInstr f.cond s (aluImmBody .sbc true f)

/-- ANDI, opcode 0x04 (rule R184). -/
def execAndi (f : ImmForm FlagSource) (s : State) : Host.Outcome State Fault Refusal :=
  runInstr f.cond s (aluImmBody .and true f)

/-- ORRI, opcode 0x05 (rule R185). -/
def execOrri (f : ImmForm FlagSource) (s : State) : Host.Outcome State Fault Refusal :=
  runInstr f.cond s (aluImmBody .orr true f)

/-- XORI, opcode 0x06 (rule R186). -/
def execXori (f : ImmForm FlagSource) (s : State) : Host.Outcome State Fault Refusal :=
  runInstr f.cond s (aluImmBody .xor true f)

/-- LOAD, opcode 0x07 (rule R187): the constant, no flags. -/
def execLoadi (f : ImmForm FlagSource) (s : State) : Host.Outcome State Fault Refusal :=
  runInstr f.cond s (moveBody f.reg f.af f.imm)

/-- UNDOC_ADD_TEST_08, opcode 0x08 (rule R188): the result is discarded. -/
def execAddTest08 (f : ImmForm FlagSource) (s : State) : Host.Outcome State Fault Refusal :=
  runInstr f.cond s (undocumented (aluImmBody .add false f))

/-- UNDOC_ADC_TEST_09, opcode 0x09 (rule R189): the result is discarded. -/
def execAdcTest09 (f : ImmForm FlagSource) (s : State) : Host.Outcome State Fault Refusal :=
  runInstr f.cond s (undocumented (aluImmBody .adc false f))

/-- CMPI, opcode 0x0A (rule R190): the result is discarded. -/
def execCmpi (f : ImmForm FlagSource) (s : State) : Host.Outcome State Fault Refusal :=
  runInstr f.cond s (aluImmBody .sub false f)

/-- UNDOC_SBC_TEST_0B, opcode 0x0B (rule R191): the result is discarded. -/
def execSbcTest0B (f : ImmForm FlagSource) (s : State) : Host.Outcome State Fault Refusal :=
  runInstr f.cond s (undocumented (aluImmBody .sbc false f))

/-- TSAI, opcode 0x0C (rule R192): the result is discarded. -/
def execTsai (f : ImmForm FlagSource) (s : State) : Host.Outcome State Fault Refusal :=
  runInstr f.cond s (aluImmBody .and false f)

/-- UNDOC_ORR_TEST_0D, opcode 0x0D (rule R193): the result is discarded. -/
def execOrrTest0D (f : ImmForm FlagSource) (s : State) : Host.Outcome State Fault Refusal :=
  runInstr f.cond s (undocumented (aluImmBody .orr false f))

/-- TSXI, opcode 0x0E (rule R194): the result is discarded. -/
def execTsxi (f : ImmForm FlagSource) (s : State) : Host.Outcome State Fault Refusal :=
  runInstr f.cond s (aluImmBody .xor false f)

end Sys2Proof.Machine
end

