-- ==== Sys2Proof/Machine/AluReg.lean ====
section
/-! DEFINITION. The ALU instructions of the register format, opcodes 0x30 to 0x3E (rules R170 to R178, R210 to
R224). -/

namespace Sys2Proof.Machine

/-- ADDR, opcode 0x30 (rule R210). -/
def execAddr (f : RegForm FlagSource) (s : State) : Host.Outcome State Fault Refusal :=
  runInstr f.cond s (aluRegBody .add true f)

/-- ADCR, opcode 0x31 (rule R211). -/
def execAdcr (f : RegForm FlagSource) (s : State) : Host.Outcome State Fault Refusal :=
  runInstr f.cond s (aluRegBody .adc true f)

/-- SUBR, opcode 0x32 (rule R212). -/
def execSubr (f : RegForm FlagSource) (s : State) : Host.Outcome State Fault Refusal :=
  runInstr f.cond s (aluRegBody .sub true f)

/-- SBCR, opcode 0x33 (rule R213). -/
def execSbcr (f : RegForm FlagSource) (s : State) : Host.Outcome State Fault Refusal :=
  runInstr f.cond s (aluRegBody .sbc true f)

/-- ANDR, opcode 0x34 (rule R214). -/
def execAndr (f : RegForm FlagSource) (s : State) : Host.Outcome State Fault Refusal :=
  runInstr f.cond s (aluRegBody .and true f)

/-- ORRR, opcode 0x35 (rule R215). -/
def execOrrr (f : RegForm FlagSource) (s : State) : Host.Outcome State Fault Refusal :=
  runInstr f.cond s (aluRegBody .orr true f)

/-- XORR, opcode 0x36 (rule R216). -/
def execXorr (f : RegForm FlagSource) (s : State) : Host.Outcome State Fault Refusal :=
  runInstr f.cond s (aluRegBody .xor true f)

/-- LOAD, opcode 0x37 (rule R217): a copy of `r3`, no flags. -/
def execLoadr (f : RegForm FlagSource) (s : State) : Host.Outcome State Fault Refusal :=
  runInstr f.cond s fun t => moveUnshiftedBody f.r1 f.af f.shift.kind (t.read f.r3) t

/-- UNDOC_ADD_TEST_38, opcode 0x38 (rule R218): the result is discarded. -/
def execAddTest38 (f : RegForm FlagSource) (s : State) : Host.Outcome State Fault Refusal :=
  runInstr f.cond s (undocumented (aluRegBody .add false f))

/-- UNDOC_ADC_TEST_39, opcode 0x39 (rule R219): the result is discarded. -/
def execAdcTest39 (f : RegForm FlagSource) (s : State) : Host.Outcome State Fault Refusal :=
  runInstr f.cond s (undocumented (aluRegBody .adc false f))

/-- CMPR, opcode 0x3A (rule R220): the result is discarded. -/
def execCmpr (f : RegForm FlagSource) (s : State) : Host.Outcome State Fault Refusal :=
  runInstr f.cond s (aluRegBody .sub false f)

/-- UNDOC_SBC_TEST_3B, opcode 0x3B (rule R221): the result is discarded. -/
def execSbcTest3B (f : RegForm FlagSource) (s : State) : Host.Outcome State Fault Refusal :=
  runInstr f.cond s (undocumented (aluRegBody .sbc false f))

/-- TSAR, opcode 0x3C (rule R222): the result is discarded. -/
def execTsar (f : RegForm FlagSource) (s : State) : Host.Outcome State Fault Refusal :=
  runInstr f.cond s (aluRegBody .and false f)

/-- UNDOC_ORR_TEST_3D, opcode 0x3D (rule R223): the result is discarded. -/
def execOrrTest3D (f : RegForm FlagSource) (s : State) : Host.Outcome State Fault Refusal :=
  runInstr f.cond s (undocumented (aluRegBody .orr false f))

/-- TSXR, opcode 0x3E (rule R224): the result is discarded. -/
def execTsxr (f : RegForm FlagSource) (s : State) : Host.Outcome State Fault Refusal :=
  runInstr f.cond s (aluRegBody .xor false f)

end Sys2Proof.Machine
end

