-- ==== Sys2Proof/Machine/AluShort.lean ====
section
/-! DEFINITION. The ALU instructions of the short immediate format, opcodes 0x20 to 0x2E (rules R170 to R178,
R195 to R209). -/

namespace Sys2Proof.Machine

/-- ADDI, opcode 0x20 (rule R195). -/
def execAddiS (f : ShortForm) (s : State) : Host.Outcome State Fault Refusal :=
  runInstr f.cond s (aluShortBody .add true f)

/-- ADCI, opcode 0x21 (rule R196). -/
def execAdciS (f : ShortForm) (s : State) : Host.Outcome State Fault Refusal :=
  runInstr f.cond s (aluShortBody .adc true f)

/-- SUBI, opcode 0x22 (rule R197). -/
def execSubiS (f : ShortForm) (s : State) : Host.Outcome State Fault Refusal :=
  runInstr f.cond s (aluShortBody .sub true f)

/-- SBCI, opcode 0x23 (rule R198). -/
def execSbciS (f : ShortForm) (s : State) : Host.Outcome State Fault Refusal :=
  runInstr f.cond s (aluShortBody .sbc true f)

/-- ANDI, opcode 0x24 (rule R199). -/
def execAndiS (f : ShortForm) (s : State) : Host.Outcome State Fault Refusal :=
  runInstr f.cond s (aluShortBody .and true f)

/-- ORRI, opcode 0x25 (rule R200). -/
def execOrriS (f : ShortForm) (s : State) : Host.Outcome State Fault Refusal :=
  runInstr f.cond s (aluShortBody .orr true f)

/-- XORI, opcode 0x26 (rule R201). -/
def execXoriS (f : ShortForm) (s : State) : Host.Outcome State Fault Refusal :=
  runInstr f.cond s (aluShortBody .xor true f)

/-- LOAD, opcode 0x27 (rule R202): the extended constant, no flags. -/
def execLoadS (f : ShortForm) (s : State) : Host.Outcome State Fault Refusal :=
  runInstr f.cond s fun t => moveUnshiftedBody f.reg f.af f.shift.kind (t.extend8 f.imm) t

/-- UNDOC_ADD_TEST_28, opcode 0x28 (rule R203): the result is discarded. -/
def execAddTest28 (f : ShortForm) (s : State) : Host.Outcome State Fault Refusal :=
  runInstr f.cond s (undocumented (aluShortBody .add false f))

/-- UNDOC_ADC_TEST_29, opcode 0x29 (rule R204): the result is discarded. -/
def execAdcTest29 (f : ShortForm) (s : State) : Host.Outcome State Fault Refusal :=
  runInstr f.cond s (undocumented (aluShortBody .adc false f))

/-- CMPI, opcode 0x2A (rule R205): the result is discarded. -/
def execCmpiS (f : ShortForm) (s : State) : Host.Outcome State Fault Refusal :=
  runInstr f.cond s (aluShortBody .sub false f)

/-- UNDOC_SBC_TEST_2B, opcode 0x2B (rule R206): the result is discarded. -/
def execSbcTest2B (f : ShortForm) (s : State) : Host.Outcome State Fault Refusal :=
  runInstr f.cond s (undocumented (aluShortBody .sbc false f))

/-- TSAI, opcode 0x2C (rule R207): the result is discarded. -/
def execTsaiS (f : ShortForm) (s : State) : Host.Outcome State Fault Refusal :=
  runInstr f.cond s (aluShortBody .and false f)

/-- UNDOC_ORR_TEST_2D, opcode 0x2D (rule R208): the result is discarded. -/
def execOrrTest2D (f : ShortForm) (s : State) : Host.Outcome State Fault Refusal :=
  runInstr f.cond s (undocumented (aluShortBody .orr false f))

/-- TSXI, opcode 0x2E (rule R209): the result is discarded. -/
def execTsxiS (f : ShortForm) (s : State) : Host.Outcome State Fault Refusal :=
  runInstr f.cond s (aluShortBody .xor false f)

end Sys2Proof.Machine
end

