-- ==== Sys2Proof/Machine/ControlFlow.lean ====
section
/-! DEFINITION. LDEA, BRAN, LJSR and BRSR, opcodes 0x18 to 0x1F (rules R250 to R263). -/

namespace Sys2Proof.Machine

/-- LDEA, opcode 0x18 (rule R252). -/
def execLdea (f : ImmForm Pair) (s : State) : Host.Outcome State Fault Refusal :=
  runInstr f.cond s (ldeaBody f.reg f.af f.imm)

/-- LDEA, opcode 0x19 (rule R253): the offset is `r2`. -/
def execLdeaR (f : RegForm Pair) (s : State) : Host.Outcome State Fault Refusal :=
  runInstr f.cond s fun t => ldeaBody f.r1 f.af (t.read f.r2) t

/-- BRAN, opcode 0x1A (rule R254). -/
def execBran (f : ImmForm Pair) (s : State) : Host.Outcome State Fault Refusal :=
  runInstr f.cond s (branBody f.af f.imm)

/-- BRAN, opcode 0x1B (rule R255): the offset is `r2`. -/
def execBranR (f : RegForm Pair) (s : State) : Host.Outcome State Fault Refusal :=
  runInstr f.cond s fun t => branBody f.af (t.read f.r2) t

/-- LJSR, opcode 0x1C (rule R256). -/
def execLjsr (f : ImmForm Pair) (s : State) : Host.Outcome State Fault Refusal :=
  runInstr f.cond s (ljsrBody f.af f.imm)

/-- LJSR, opcode 0x1D (rule R258): the offset is `r2`. -/
def execLjsrR (f : RegForm Pair) (s : State) : Host.Outcome State Fault Refusal :=
  runInstr f.cond s fun t => ljsrBody f.af (t.read f.r2) t

/-- BRSR, opcode 0x1E (rule R257). -/
def execBrsr (f : ImmForm Pair) (s : State) : Host.Outcome State Fault Refusal :=
  runInstr f.cond s (brsrBody f.af f.imm)

/-- BRSR, opcode 0x1F (rule R259): the offset is `r2`. -/
def execBrsrR (f : RegForm Pair) (s : State) : Host.Outcome State Fault Refusal :=
  runInstr f.cond s fun t => brsrBody f.af (t.read f.r2) t

end Sys2Proof.Machine
end

