-- ==== Sys2Proof/Machine/Coprocessor.lean ====
section
/-! DEFINITION. The coprocessor calls COPI and COPR, opcodes 0x0F, 0x2F and 0x3F, and the operations of the
exception unit that have a name of their own (rules R270 to R284, R304 to R309). -/

namespace Sys2Proof.Machine

/-- COPI, opcode 0x0F (rule R270): the call value is the constant. -/
def execCopi (f : ImmForm FlagSource) (s : State) : Host.Outcome State Fault Refusal :=
  runInstr f.cond s (coprocessorCall f.imm)

/-- COPI, opcode 0x2F (rule R270): the call value is the extended constant. -/
def execCopiS (f : ShortForm) (s : State) : Host.Outcome State Fault Refusal :=
  runInstr f.cond s fun t => coprocessorCall (t.extend8 f.imm) t

/-- COPR, opcode 0x3F (rule R270): the call value is `r3`. -/
def execCopr (f : RegForm FlagSource) (s : State) : Host.Outcome State Fault Refusal :=
  runInstr f.cond s fun t => coprocessorCall (t.read f.r3) t

/-- EXCP: the coprocessor call 0x11 with its parameter (rules R276, R304). -/
def execExcp (f : UnitForm) (s : State) : Host.Outcome State Fault Refusal :=
  runInstr f.cond s (coprocessorCall (unitExpansion 0x11 f).imm)

/-- WAIT: the coprocessor call 0x19 with its parameter (rules R279, R305). -/
def execWait (f : UnitForm) (s : State) : Host.Outcome State Fault Refusal :=
  runInstr f.cond s (coprocessorCall (unitExpansion 0x19 f).imm)

/-- RETE: the coprocessor call 0x1A with its parameter (rules R280, R306). -/
def execRete (f : UnitForm) (s : State) : Host.Outcome State Fault Refusal :=
  runInstr f.cond s (coprocessorCall (unitExpansion 0x1A f).imm)

/-- RSET: the coprocessor call 0x1B with its parameter (rules R281, R307). -/
def execRset (f : UnitForm) (s : State) : Host.Outcome State Fault Refusal :=
  runInstr f.cond s (coprocessorCall (unitExpansion 0x1B f).imm)

/-- ETFR: the coprocessor call 0x1C with its parameter (rules R282, R308). -/
def execEtfr (f : UnitForm) (s : State) : Host.Outcome State Fault Refusal :=
  runInstr f.cond s (coprocessorCall (unitExpansion 0x1C f).imm)

/-- ETTR: the coprocessor call 0x1D with its parameter (rules R283, R309). -/
def execEttr (f : UnitForm) (s : State) : Host.Outcome State Fault Refusal :=
  runInstr f.cond s (coprocessorCall (unitExpansion 0x1D f).imm)

end Sys2Proof.Machine
end

