-- ==== Sys2Proof/Machine/LoadStore.lean ====
section
/-! DEFINITION. STOR and LOAD, opcodes 0x10 to 0x17 (rules R230 to R242). -/

namespace Sys2Proof.Machine

/-- STOR, opcode 0x10 (rule R234). -/
def execStorInd (f : ImmForm Pair) (s : State) : Host.Outcome State Fault Refusal :=
  runInstr f.cond s (storeIndirect f.reg f.af f.imm noShift)

/-- STOR, opcode 0x11 (rule R235): the offset is `r2`. -/
def execStorIndR (f : RegForm Pair) (s : State) : Host.Outcome State Fault Refusal :=
  runInstr f.cond s fun t => storeIndirect f.r1 f.af (t.read f.r2) f.shift t

/-- STOR, opcode 0x12 (rule R236). -/
def execStorPre (f : ImmForm Pair) (s : State) : Host.Outcome State Fault Refusal :=
  runInstr f.cond s (storePreDecrement f.reg f.af f.imm noShift)

/-- STOR, opcode 0x13 (rule R237): the offset is `r2`. -/
def execStorPreR (f : RegForm Pair) (s : State) : Host.Outcome State Fault Refusal :=
  runInstr f.cond s fun t => storePreDecrement f.r1 f.af (t.read f.r2) f.shift t

/-- LOAD, opcode 0x14 (rule R238). -/
def execLoadInd (f : ImmForm Pair) (s : State) : Host.Outcome State Fault Refusal :=
  runInstr f.cond s (loadIndirect f.reg f.af f.imm noShift)

/-- LOAD, opcode 0x15 (rule R239): the offset is `r2`. -/
def execLoadIndR (f : RegForm Pair) (s : State) : Host.Outcome State Fault Refusal :=
  runInstr f.cond s fun t => loadIndirect f.r1 f.af (t.read f.r2) f.shift t

/-- LOAD, opcode 0x16 (rule R240). -/
def execLoadPost (f : ImmForm Pair) (s : State) : Host.Outcome State Fault Refusal :=
  runInstr f.cond s (loadPostIncrement f.reg f.af f.imm noShift)

/-- LOAD, opcode 0x17 (rule R241): the offset is `r2`. -/
def execLoadPostR (f : RegForm Pair) (s : State) : Host.Outcome State Fault Refusal :=
  runInstr f.cond s fun t => loadPostIncrement f.r1 f.af (t.read f.r2) f.shift t

end Sys2Proof.Machine
end

