-- ==== Sys2Proof/Machine/Meta.lean ====
section
/-! DEFINITION. The meta-instructions that have a row of the opcode table: each is the instruction it assembles to
(rules R300, R302, R303, R310, R311). -/

namespace Sys2Proof.Machine

/-- NOOP: `ADDI sr, #0` without a flag update (rule R300). -/
def execNoop (s : State) : Host.Outcome State Fault Refusal :=
  runInstr noopExpansion.cond s (aluImmBody .add true noopExpansion)

/-- RETS: `LDEA p, (#0, l)` (rule R302). -/
def execRets (c : Cond) (s : State) : Host.Outcome State Fault Refusal :=
  runInstr c s (ldeaBody (retsExpansion c).reg (retsExpansion c).af (retsExpansion c).imm)

/-- LJMP with an immediate offset: LDEA with destination `p` (rule R303). -/
def execLjmp (f : JumpForm) (s : State) : Host.Outcome State Fault Refusal :=
  runInstr f.cond s (ldeaBody (ljmpExpansion f).reg (ljmpExpansion f).af (ljmpExpansion f).imm)

/-- LJMP with a register offset: register-form LDEA with destination `p` (rule R303). -/
def execLjmpR (f : JumpRegForm) (s : State) : Host.Outcome State Fault Refusal :=
  runInstr f.cond s fun t =>
    ldeaBody (ljmpRegExpansion f).r1 (ljmpRegExpansion f).af (t.read (ljmpRegExpansion f).r2) t

/-- SHFI: short-immediate ADDI with the flags of the shifter (rule R310). -/
def execShfi (f : ShiftImmForm) (s : State) : Host.Outcome State Fault Refusal :=
  runInstr f.cond s (aluShortBody .add true (shfiExpansion f))

/-- SHFR: ADDR with the flags of the shifter (rule R310). -/
def execShfr (f : ShiftRegForm) (s : State) : Host.Outcome State Fault Refusal :=
  runInstr f.cond s (aluRegBody .add true (shfrExpansion f))

/-- SHFT: short-immediate ORRI of 0 with the flags of the shifter (rule R311). -/
def execShft (f : ShiftForm) (s : State) : Host.Outcome State Fault Refusal :=
  runInstr f.cond s (aluShortBody .orr true (shftExpansion f))

end Sys2Proof.Machine
end

