-- ==== Sys2Proof/Machine/Dispatch.lean ====
section
/-! DEFINITION. The dispatch: each instruction to its meaning. -/

namespace Sys2Proof.Machine

def exec (i : Instr) (s : State) : Host.Outcome State Fault Refusal :=
  match i with
  | .addi f => Sys2Proof.Machine.execAddi f s
  | .adci f => Sys2Proof.Machine.execAdci f s
  | .subi f => Sys2Proof.Machine.execSubi f s
  | .sbci f => Sys2Proof.Machine.execSbci f s
  | .andi f => Sys2Proof.Machine.execAndi f s
  | .orri f => Sys2Proof.Machine.execOrri f s
  | .xori f => Sys2Proof.Machine.execXori f s
  | .loadi f => Sys2Proof.Machine.execLoadi f s
  | .addTest08 f => Sys2Proof.Machine.execAddTest08 f s
  | .adcTest09 f => Sys2Proof.Machine.execAdcTest09 f s
  | .cmpi f => Sys2Proof.Machine.execCmpi f s
  | .sbcTest0B f => Sys2Proof.Machine.execSbcTest0B f s
  | .tsai f => Sys2Proof.Machine.execTsai f s
  | .orrTest0D f => Sys2Proof.Machine.execOrrTest0D f s
  | .tsxi f => Sys2Proof.Machine.execTsxi f s
  | .copi f => Sys2Proof.Machine.execCopi f s
  | .storInd f => Sys2Proof.Machine.execStorInd f s
  | .storIndR f => Sys2Proof.Machine.execStorIndR f s
  | .storPre f => Sys2Proof.Machine.execStorPre f s
  | .storPreR f => Sys2Proof.Machine.execStorPreR f s
  | .loadInd f => Sys2Proof.Machine.execLoadInd f s
  | .loadIndR f => Sys2Proof.Machine.execLoadIndR f s
  | .loadPost f => Sys2Proof.Machine.execLoadPost f s
  | .loadPostR f => Sys2Proof.Machine.execLoadPostR f s
  | .ldea f => Sys2Proof.Machine.execLdea f s
  | .ldeaR f => Sys2Proof.Machine.execLdeaR f s
  | .bran f => Sys2Proof.Machine.execBran f s
  | .branR f => Sys2Proof.Machine.execBranR f s
  | .ljsr f => Sys2Proof.Machine.execLjsr f s
  | .ljsrR f => Sys2Proof.Machine.execLjsrR f s
  | .brsr f => Sys2Proof.Machine.execBrsr f s
  | .brsrR f => Sys2Proof.Machine.execBrsrR f s
  | .addiS f => Sys2Proof.Machine.execAddiS f s
  | .adciS f => Sys2Proof.Machine.execAdciS f s
  | .subiS f => Sys2Proof.Machine.execSubiS f s
  | .sbciS f => Sys2Proof.Machine.execSbciS f s
  | .andiS f => Sys2Proof.Machine.execAndiS f s
  | .orriS f => Sys2Proof.Machine.execOrriS f s
  | .xoriS f => Sys2Proof.Machine.execXoriS f s
  | .loadS f => Sys2Proof.Machine.execLoadS f s
  | .addTest28 f => Sys2Proof.Machine.execAddTest28 f s
  | .adcTest29 f => Sys2Proof.Machine.execAdcTest29 f s
  | .cmpiS f => Sys2Proof.Machine.execCmpiS f s
  | .sbcTest2B f => Sys2Proof.Machine.execSbcTest2B f s
  | .tsaiS f => Sys2Proof.Machine.execTsaiS f s
  | .orrTest2D f => Sys2Proof.Machine.execOrrTest2D f s
  | .tsxiS f => Sys2Proof.Machine.execTsxiS f s
  | .copiS f => Sys2Proof.Machine.execCopiS f s
  | .addr f => Sys2Proof.Machine.execAddr f s
  | .adcr f => Sys2Proof.Machine.execAdcr f s
  | .subr f => Sys2Proof.Machine.execSubr f s
  | .sbcr f => Sys2Proof.Machine.execSbcr f s
  | .andr f => Sys2Proof.Machine.execAndr f s
  | .orrr f => Sys2Proof.Machine.execOrrr f s
  | .xorr f => Sys2Proof.Machine.execXorr f s
  | .loadr f => Sys2Proof.Machine.execLoadr f s
  | .addTest38 f => Sys2Proof.Machine.execAddTest38 f s
  | .adcTest39 f => Sys2Proof.Machine.execAdcTest39 f s
  | .cmpr f => Sys2Proof.Machine.execCmpr f s
  | .sbcTest3B f => Sys2Proof.Machine.execSbcTest3B f s
  | .tsar f => Sys2Proof.Machine.execTsar f s
  | .orrTest3D f => Sys2Proof.Machine.execOrrTest3D f s
  | .tsxr f => Sys2Proof.Machine.execTsxr f s
  | .copr f => Sys2Proof.Machine.execCopr f s
  | .excp f => Sys2Proof.Machine.execExcp f s
  | .wait f => Sys2Proof.Machine.execWait f s
  | .rete f => Sys2Proof.Machine.execRete f s
  | .rset f => Sys2Proof.Machine.execRset f s
  | .etfr f => Sys2Proof.Machine.execEtfr f s
  | .ettr f => Sys2Proof.Machine.execEttr f s
  | .noop => Sys2Proof.Machine.execNoop s
  | .rets c => Sys2Proof.Machine.execRets c s
  | .ljmp f => Sys2Proof.Machine.execLjmp f s
  | .ljmpR f => Sys2Proof.Machine.execLjmpR f s
  | .shfi f => Sys2Proof.Machine.execShfi f s
  | .shfr f => Sys2Proof.Machine.execShfr f s
  | .shft f => Sys2Proof.Machine.execShft f s

end Sys2Proof.Machine
end

