-- ==== Sys2Proof/Machine/Step.lean ====
section
/-! DEFINITION. One step of the machine (rule R161), and where it fetches its next instruction. -/

namespace Sys2Proof.Machine

/-- Fetch, decode and execute one instruction (rule R161 steps 3 to 7). A fault of the fetch is entered with the
address of the instruction as return address (rules R65, R333). -/
def fetchAndRun (s : State) : Host.Outcome State Fault Refusal :=
  match s.fetch with
  | .error f => takeFault s s.pc f
  | .ok w => exec (decodeWord w) s

/-- One step (rule R161): the exception unit first, then one instruction. -/
def step (s : State) : Host.Outcome State Fault Refusal :=
  match s.boundary with
  | .done o => o
  | .run t => fetchAndRun t

/-- The machine with an instruction at its program counter, bits 31 to 16 in the word at `ph:pl` and bits 15 to 0 in
the next one (rule R61), and with nothing that would keep the next step from fetching it: no event at the pins,
no latched interrupt, no wait state (log entry 38). -/
def State.withFetchWord (s : State) (nbits w : Nat) : State :=
  let i : Long := BitVec.ofNat 32 (w % 2 ^ nbits)
  let m := Memory.setWord s.mem (addressOf s.ph s.pl) (i.extractLsb' 16 16)
  { s with mem := Memory.setWord m (addressOf s.ph (s.pl + 1)) (i.extractLsb' 0 16)
           inputs := [], pending := Lines.none, waiting := false }

end Sys2Proof.Machine
end

