-- ==== Sys2Proof/Safety.lean ====
section
/-! DEFINITION. The terms in which statements about the machine are written: the invariant of its states, what a
program in protected mode is confined to, and a fault taken. -/

namespace Sys2Proof.Machine

/-- The exception unit saves in LR0 to LR5 only levels below the one it enters (rules R322, R352), so the return
level of link register `n` is at most `n`. LR6 may hold 7 after a double fault (rule R347), and LR7 is metadata. -/
def linksOrdered (links : Vector LinkReg 8) : Bool :=
  decide ((links[0]).level ≤ 0) && decide ((links[1]).level ≤ 1) && decide ((links[2]).level ≤ 2)
    && decide ((links[3]).level ≤ 3) && decide ((links[4]).level ≤ 4) && decide ((links[5]).level ≤ 5)

/-- A reset event of the environment keeps the order of the link registers (log entry 8). -/
def Pins.ordered (p : Pins) : Bool :=
  match p.reset with
  | none => true
  | some v => linksOrdered v.links

/-- The invariant: memory is in canonical form, bit 13 of the status register is not stored (rule R35), and the
link registers are ordered, now and after every reset the environment may bring. -/
def State.Inv (s : State) : Prop :=
  Memory.wf s.mem = true ∧ s.sr.getLsbD 13 = false ∧ linksOrdered s.links = true ∧
    ∀ p ∈ s.inputs, Pins.ordered p = true

/-- An instruction with condition `c` executes in `s` and no trace fault follows it. -/
def State.executes (s : State) (c : Cond) : Prop :=
  condHolds c (srFlags s.sr) = true ∧ s.tracing = false

/-- The platform answers the two reads of vector `v`, as rule R326 requires. -/
def State.vectorReadable (s : State) (v : BitVec 8) : Prop :=
  s.busError (vectorAddress v) = false ∧ s.busError (vectorAddress v + 1) = false

/-- The word of vector `v` that becomes `ph`, and the one that becomes `pl` (rule R326). -/
def State.vectorHigh (s : State) (v : BitVec 8) : Word := s.busRead .vector (vectorAddress v)
def State.vectorLow (s : State) (v : BitVec 8) : Word := s.busRead .vector (vectorAddress v + 1)

/-- The address calculation `low + off` stays in its segment, or SR.A does not trap it (rules R68, R69). -/
def State.staysInside (s : State) (low off : Word) : Prop :=
  s.trapsOverflow = false ∨ (0 ≤ (low.toNat : Int) + off.toInt ∧ (low.toNat : Int) + off.toInt ≤ 0xFFFF)

/-- A sum in closed form: modular addition, the carry out, and overflow by the signs (rule R171). -/
def closedSum (a b : Word) (cin : Bool) : Word × Flags :=
  let res := a + b + (if cin then 1 else 0)
  (res, { z := res == 0, n := res.getLsbD 15, c := decide (0x10000 ≤ a.toNat + b.toNat + cin.toNat),
          v := a.getLsbD 15 == b.getLsbD 15 && res.getLsbD 15 != a.getLsbD 15 })

/-- A difference in closed form: modular subtraction, no borrow, and overflow by the signs (rule R173). -/
def closedDifference (a b : Word) (bin : Bool) : Word × Flags :=
  let res := a - b - (if bin then 1 else 0)
  (res, { z := res == 0, n := res.getLsbD 15, c := decide (b.toNat + bin.toNat ≤ a.toNat),
          v := a.getLsbD 15 != b.getLsbD 15 && res.getLsbD 15 != a.getLsbD 15 })

/-- A logical result with its flags: C and V cleared (rule R175). -/
def closedLogic (res : Word) : Word × Flags :=
  (res, { z := res == 0, n := res.getLsbD 15, c := false, v := false })

/-- Result and flags of each ALU function in closed form (rules R170 to R175); `c` is SR.C before. -/
def closedAlu (fn : AluFn) (a b : Word) (c : Bool) : Word × Flags :=
  match fn with
  | .add => closedSum a b false
  | .adc => closedSum a b c
  | .sub => closedDifference a b false
  | .sbc => closedDifference a b (!c)
  | .and => closedLogic (a &&& b)
  | .orr => closedLogic (a ||| b)
  | .xor => closedLogic (a ^^^ b)

/-- The status register after a flag update by AF (rule R153): bits 15 to 4 stay. -/
def State.flagged (s : State) (af : FlagSource) (aluFlags shifterFlags : Flags) : State :=
  match af with
  | .keep | .reserved => s
  | .alu => { s with sr := (s.sr &&& 0xFFF0) ||| aluFlags.bits.setWidth 16 }
  | .shift => { s with sr := (s.sr &&& 0xFFF0) ||| shifterFlags.bits.setWidth 16 }

/-- The state an ALU instruction leaves (rules R154, R177), from the state `s` whose program counter has passed it:
`dst` takes the result if there is a destination, then the flags AF selects are written, and nothing else
changes. `v` is the first operand before the shifter, `a` the shifter's output, `b` the second operand. -/
def State.aluNext (s : State) (fn : AluFn) (dst : Option Reg) (af : FlagSource) (kind : ShiftType) (v : Word)
    (a : ShiftOut) (b : Word) : State :=
  let c := (srFlags s.sr).c
  let r := closedAlu fn a.res b c
  (s.writeBack dst r.1).flagged af r.2
    { z := a.res == 0, n := a.res.getLsbD 15, c := a.cout.getD c,
      v := if kind = .asl then v.getLsbD 15 != a.res.getLsbD 15 else (srFlags s.sr).v }

/-- `t` is `s` but for memory, where the word at `ea` is `v` and every other byte is as before. -/
def storedOnly (s t : State) (ea : Address) (v : Word) : Prop :=
  t = s.withMem t.mem ∧ Memory.word t.mem ea = v ∧
    ∀ b : Nat, b ≠ highCell ea → b ≠ highCell ea + 1 → Memory.byte t.mem b = Memory.byte s.mem b

/-- What a store of `v` at `ea` leaves of `s`: the word stored and nothing else where there is writable memory,
and nothing changed elsewhere (log entry 6). -/
def storedAt (s t : State) (ea : Address) (v : Word) : Prop :=
  (s.kindAt ea = .ram → storedOnly s t ea v) ∧ (s.kindAt ea ≠ .ram → t = s)

/-- The four high registers, which name the segments a protected program can reach (rule R76). -/
def State.segments (s : State) : Word × Word × Word × Word := (s.gen.lh, s.gen.ah, s.gen.sh, s.ph)

/-- A word of memory, as stored. -/
def State.word (s : State) (a : Address) : Word := Memory.word s.mem a

end Sys2Proof.Machine
end

