-- ==== Sys2Proof/Certificates/Slice0/Obligations.lean ====
section
/-! DEFINITION. What is stated of the machine, for the provers. Each statement is about every state and every
operand that meets its hypotheses; the vocabulary is that of `Sys2Proof/Safety.lean`. In a meaning's statement `s` is
the machine with the program counter at the instruction, and `s.advance` the same machine with the program
counter past it. -/

section Statements

open Sys2Proof Sys2Proof.Machine

/-! Encoding -/

/-- Decoding gives back every well-formed instruction that is encoded, with every operand. -/
def Obligations.DecodeAfterEncode : Prop :=
  ∀ i : Instr, i.wellFormed = true → decodeWord (encode i) = i

/-- Every one of the 2^32 words decodes to a well-formed instruction whose encoding is that word, so no two words
share an instruction and no bit is dropped (rule R105). -/
def Obligations.EncodeAfterDecode : Prop :=
  ∀ w : Long, (decodeWord w).wellFormed = true ∧ encode (decodeWord w) = w

/-- Words written out in the spec decode to the instructions it gives them. -/
def Obligations.DecodesSpecWords : Prop :=
  decodeWord 0x00401910 = .addi ⟨.r1, 100, .alu, .al⟩ ∧
  decodeWord 0x413FFFA0 = .storInd ⟨.r4, 0xFFFE, .s, .al⟩ ∧
  decodeWord 0x683FFC32 = .bran ⟨.sr, 0xFFF0, .p, .ne⟩ ∧
  decodeWord 0x804084D0 = .addiS ⟨.r1, 2, ⟨.lit 3, .lsl⟩, .alu, .al⟩ ∧
  decodeWord 0xC048C490 = .addr ⟨.r1, .r2, .r3, ⟨.lit 2, .lsl⟩, .alu, .al⟩ ∧
  decodeWord 0x3C046000 = .excp ⟨.sr, 0x80, .keep, .al⟩

/-! Reset and the invariant -/

/-- What reset leaves where the spec states it: the status register, the level, the wait flag and the latches are
0, and the program counter is the reset vector. -/
def Obligations.ResetState : Prop :=
  State.reset.sr = 0 ∧ State.reset.statusWord = 0 ∧ State.reset.level = 0 ∧ State.reset.waiting = false ∧
  State.reset.pending = ⟨false, false, false, false, false⟩ ∧
  State.reset.ph = Memory.word State.reset.mem 0 ∧ State.reset.pl = Memory.word State.reset.mem 1

/-- The invariant holds at reset. That it does rests on what the model chose for State.reset: empty memory (log
entry 1), link registers of 0 (log entry 4) and no events (log entry 7). -/
def Obligations.InvariantAtReset : Prop := State.reset.Inv

/-- Every step keeps the invariant: memory stays in canonical form, bit 13 of the status register stays
unstored, and LR0 to LR5 stay ordered. -/
def Obligations.InvariantKept : Prop :=
  ∀ s t : State, s.Inv → step s = .next t → t.Inv

/-- A hardware reset, from any state and whatever else happens at that boundary: the items of rule R381. Memory is
unchanged, and the registers without a stated value take those of the reset event (log entry 8). The step is counted
(log entry 6). -/
def Obligations.HardwareResetSequence : Prop :=
  ∀ (s : State) (v : ResetValues) (lines : Lines) (rest : List Pins),
    s.inputs = ⟨some v, lines⟩ :: rest → s.vectorReadable 0 →
    let r := { s with inputs := rest, tick := s.tick + 1 }
    step s = .next
      { r with
        sr := 0, gen := v.gen, ph := r.vectorHigh 0, pl := r.vectorLow 0, links := v.links, cause := v.cause,
        level := 0, waiting := false, pending := ⟨false, false, false, false, false⟩ }

/-! Registers and the status register -/

/-- Reading and writing the status register: the mask of protected mode, EA from the level, and the bits a write
keeps or drops. -/
def Obligations.StatusRegisterAccess : Prop :=
  ∀ (s : State) (v : Word),
    (s.isProtected = true → s.read .sr = s.sr &&& 0x00FF ∧
      (s.write .sr v) = { s with sr := (s.sr &&& 0xFF00) ||| (v &&& 0x00FF) }) ∧
    (s.isProtected = false →
      (s.read .sr).getLsbD 13 = decide (s.level ≠ 0) ∧
      (∀ i : Nat, i ≠ 13 → (s.read .sr).getLsbD i = s.sr.getLsbD i) ∧
      (s.write .sr v) = { s with sr := v &&& 0xDFFF })

/-- The register file: a register other than the status register reads back what was written to it, every other
register, the status register too, reads as before, and nothing outside the registers changes (rules R21, R26, R27,
R28). Only bits 7 to 0 of a high register address memory (rules R25, R26): two pairs whose high registers differ in bits 15 to 8 name the same
word. -/
def Obligations.HighRegisterStorage : Prop :=
  (∀ (s : State) (r : Reg) (v : Word), r ≠ .sr →
    let t := s.write r v
    t.read r = v ∧ (∀ q, q ≠ r → t.read q = s.read q) ∧ t = { s with gen := t.gen, ph := t.ph, pl := t.pl }) ∧
  (∀ v w low : Word,
    (v.extractLsb' 0 8 = w.extractLsb' 0 8 → addressOf v low = addressOf w low) ∧
    (addressOf v low).toNat = (v.toNat % 256) * 65536 + low.toNat)

/-- The condition field (rule R150): bits 3 to 0 of every word choose one of sixteen conditions over the flags as they
are when the instruction starts, an instruction whose condition fails only advances the program counter, with no
fault, no call and no refusal (rule R151, the spec's decision D12, log entry 39), and
after a comparison of `a` with `b` the conditions read as the table's last column says. -/
def Obligations.ConditionDecides : Prop :=
  (∀ v c n z : Bool,
    let holds (code : BitVec 4) := condHolds (Cond.ofCode code) ⟨v, c, n, z⟩
    holds 0x0 = true ∧ holds 0x1 = z ∧ holds 0x2 = !z ∧ holds 0x3 = c ∧ holds 0x4 = !c ∧ holds 0x5 = n ∧
    holds 0x6 = !n ∧ holds 0x7 = v ∧ holds 0x8 = !v ∧ holds 0x9 = (c && !z) ∧ holds 0xA = (!c || z) ∧
    holds 0xB = (n == v) ∧ holds 0xC = (n != v) ∧ holds 0xD = (!z && n == v) ∧ holds 0xE = (z || n != v) ∧
    holds 0xF = false) ∧
  (∀ w : Long, (decodeWord w).cond = Cond.ofCode (w.extractLsb' 0 4)) ∧
  (∀ (i : Instr) (s : State), condHolds i.cond (srFlags s.sr) = false → s.tracing = false →
    exec i s = .next { s with pl := s.pl + 2 }) ∧
  (∀ (a b : Word) (c : Bool),
    let holds (k : Cond) : Prop := condHolds k (aluResult .sub a b c).2 = true
    (holds .eq ↔ a = b) ∧ (holds .ne ↔ a ≠ b) ∧ (holds .cs ↔ b.toNat ≤ a.toNat) ∧
    (holds .cc ↔ a.toNat < b.toNat) ∧ (holds .hi ↔ b.toNat < a.toNat) ∧ (holds .lo ↔ a.toNat ≤ b.toNat) ∧
    (holds .ge ↔ b.toInt ≤ a.toInt) ∧ (holds .lt ↔ a.toInt < b.toInt) ∧ (holds .gt ↔ b.toInt < a.toInt) ∧
    (holds .le ↔ a.toInt ≤ b.toInt))

/-! The ALU functions -/

/-- Result and flags of ADD, ADC, SUB, SBC, AND, ORR and XOR (rules R171 to R175); `c` is SR.C before the
instruction. -/
def Obligations.AluFunctions : Prop :=
  ∀ (a b : Word) (c : Bool),
    let signed (r : Word × Flags) (t : Int) : Prop :=
      (r.2.z = true ↔ r.1 = 0) ∧ r.2.n = r.1.getLsbD 15 ∧ (r.2.v = true ↔ t < -32768 ∨ 32767 < t)
    let sum (r : Word × Flags) (cin : Nat) : Prop :=
      r.1.toNat = (a.toNat + b.toNat + cin) % 2 ^ 16 ∧ signed r (a.toInt + b.toInt + cin) ∧
      (r.2.c = true ↔ 0xFFFF < a.toNat + b.toNat + cin) ∧
      (r.2.v = true ↔ a.getLsbD 15 = b.getLsbD 15 ∧ r.1.getLsbD 15 ≠ a.getLsbD 15)
    let difference (r : Word × Flags) (bin : Nat) : Prop :=
      (r.1.toNat : Int) = ((a.toNat : Int) - b.toNat - bin) % 2 ^ 16 ∧ signed r (a.toInt - b.toInt - bin) ∧
      (r.2.c = true ↔ b.toNat + bin ≤ a.toNat)
    let logic (r : Word × Flags) (res : Word) : Prop :=
      r.1 = res ∧ (r.2.z = true ↔ res = 0) ∧ r.2.n = res.getLsbD 15 ∧ r.2.c = false ∧ r.2.v = false
    sum (aluResult .add a b c) 0 ∧ sum (aluResult .adc a b c) (if c then 1 else 0) ∧
    difference (aluResult .sub a b c) 0 ∧ difference (aluResult .sbc a b c) (if c then 0 else 1) ∧
    logic (aluResult .and a b c) (a &&& b) ∧ logic (aluResult .orr a b c) (a ||| b) ∧
    logic (aluResult .xor a b c) (a ^^^ b)

/-! The shifter -/

/-- LSL, ASL, LSR and ASR by 1 to 15 positions: result and last bit shifted out. -/
def Obligations.ShiftsByCount : Prop :=
  ∀ (v n : Word) (c : Bool), 1 ≤ n.toNat → n.toNat ≤ 15 →
    shiftOutput .lsl v n c =
      some ⟨BitVec.ofNat 16 (v.toNat * 2 ^ n.toNat), some (v.getLsbD (16 - n.toNat))⟩ ∧
    shiftOutput .asl v n c =
      some ⟨BitVec.ofNat 16 (v.toNat * 2 ^ n.toNat), some (v.getLsbD (16 - n.toNat))⟩ ∧
    shiftOutput .lsr v n c =
      some ⟨BitVec.ofNat 16 (v.toNat / 2 ^ n.toNat), some (v.getLsbD (n.toNat - 1))⟩ ∧
    shiftOutput .asr v n c =
      some ⟨BitVec.ofInt 16 (v.toInt / 2 ^ n.toNat), some (v.getLsbD (n.toNat - 1))⟩

/-- RTL and RTR by 1 to 15 positions are rotations of the 17 bits carry : operand. -/
def Obligations.RotatesThroughCarry : Prop :=
  ∀ (v n : Word) (c : Bool), 1 ≤ n.toNat → n.toNat ≤ 15 →
    let ring : BitVec 17 := BitVec.ofBool c ++ v
    shiftOutput .rtl v n c =
      some ⟨(ring.rotateLeft n.toNat).extractLsb' 0 16, some ((ring.rotateLeft n.toNat).getLsbD 16)⟩ ∧
    shiftOutput .rtr v n c =
      some ⟨(ring.rotateRight n.toNat).extractLsb' 0 16, some ((ring.rotateRight n.toNat).getLsbD 16)⟩

/-- A count of 0 and the shift type none leave the operand and shift nothing out; the type none does not look at the
count. Every type but the reserved one has an output for every count, a count above 15 included, whose value
there is open (log entry 9). In a memory instruction the platform's `mem_shift_target` says whether the data or the
offset is shifted (log entry 14). -/
def Obligations.ShiftOutputsExist : Prop :=
  (∀ (k : ShiftType) (v n : Word) (c : Bool),
    (k ≠ .reserved → shiftOutput k v 0 c = some ⟨v, none⟩) ∧
    shiftOutput .none v n c = some ⟨v, none⟩ ∧
    (k ≠ .reserved → ∃ out, shiftOutput k v n c = some out) ∧
    shiftOutput .reserved v n c = none) ∧
  (∀ (s : State) (sh : Shift) (v : Word) (out : ShiftOut),
    shiftOutput sh.kind v (s.shiftCount sh.count) (srFlags s.sr).c = some out →
    (s.platform.memShift = .data → s.dataWord sh v = out.res ∧ s.offsetWord sh v = v) ∧
    (s.platform.memShift = .offset → s.dataWord sh v = v ∧ s.offsetWord sh v = out.res))

/-! ALU instructions -/

/-- The seven save instructions of the immediate format: result, flags and frame. -/
def Obligations.ImmediateAluResult : Prop :=
  ∀ (f : ImmForm FlagSource) (s : State),
    s.executes f.cond → f.af ≠ .reserved → s.forbidsWrite f.reg = false →
    let x := s.advance.read f.reg
    let next (fn : AluFn) : Host.Outcome State Fault Refusal :=
      .next (s.advance.aluNext fn (some f.reg) f.af .none x ⟨x, none⟩ f.imm)
    exec (.addi f) s = next .add ∧ exec (.adci f) s = next .adc ∧ exec (.subi f) s = next .sub ∧
    exec (.sbci f) s = next .sbc ∧ exec (.andi f) s = next .and ∧ exec (.orri f) s = next .orr ∧
    exec (.xori f) s = next .xor

/-- The seven test instructions of the immediate format: flags only, in both modes and for every register; the
undocumented four where the platform's mode is the hardware pattern (log entry 15). -/
def Obligations.ImmediateTestFlags : Prop :=
  ∀ (f : ImmForm FlagSource) (s : State), s.executes f.cond → f.af ≠ .reserved →
    let x := s.advance.read f.reg
    let next (fn : AluFn) : Host.Outcome State Fault Refusal :=
      .next (s.advance.aluNext fn none f.af .none x ⟨x, none⟩ f.imm)
    exec (.cmpi f) s = next .sub ∧ exec (.tsai f) s = next .and ∧ exec (.tsxi f) s = next .xor ∧
    (s.platform.undocumented = .hardwarePattern →
      exec (.addTest08 f) s = next .add ∧ exec (.adcTest09 f) s = next .adc ∧ exec (.sbcTest0B f) s = next .sbc ∧
      exec (.orrTest0D f) s = next .orr)

/-- The seven save instructions of the short immediate format: the destination is shifted, the constant is
extended to 16 bits as the platform's `imm8_extension` says (log entry 13) and not shifted. -/
def Obligations.ShortAluResult : Prop :=
  (∀ (s : State) (b : BitVec 8),
    (s.platform.imm8 = .zero → (s.extend8 b).toNat = b.toNat) ∧
    (s.platform.imm8 = .sign → (s.extend8 b).toInt = b.toInt)) ∧
  (∀ (f : ShortForm) (s : State),
    s.executes f.cond → f.af ≠ .reserved → f.shift.kind ≠ .reserved → s.forbidsWrite f.reg = false →
    let x := s.advance.read f.reg
    ∃ a, shiftOutput f.shift.kind x (s.advance.shiftCount f.shift.count) (srFlags s.sr).c = some a ∧
      let next (fn : AluFn) : Host.Outcome State Fault Refusal :=
        .next (s.advance.aluNext fn (some f.reg) f.af f.shift.kind x a (s.extend8 f.imm))
      exec (.addiS f) s = next .add ∧ exec (.adciS f) s = next .adc ∧ exec (.subiS f) s = next .sub ∧
      exec (.sbciS f) s = next .sbc ∧ exec (.andiS f) s = next .and ∧ exec (.orriS f) s = next .orr ∧
      exec (.xoriS f) s = next .xor)

/-- The seven test instructions of the short immediate format: flags only; the undocumented four where the
platform's mode is the hardware pattern (log entry 15). -/
def Obligations.ShortTestFlags : Prop :=
  ∀ (f : ShortForm) (s : State),
    s.executes f.cond → f.af ≠ .reserved → f.shift.kind ≠ .reserved →
    let x := s.advance.read f.reg
    ∃ a, shiftOutput f.shift.kind x (s.advance.shiftCount f.shift.count) (srFlags s.sr).c = some a ∧
      let next (fn : AluFn) : Host.Outcome State Fault Refusal :=
        .next (s.advance.aluNext fn none f.af f.shift.kind x a (s.extend8 f.imm))
      exec (.cmpiS f) s = next .sub ∧ exec (.tsaiS f) s = next .and ∧ exec (.tsxiS f) s = next .xor ∧
      (s.platform.undocumented = .hardwarePattern →
        exec (.addTest28 f) s = next .add ∧ exec (.adcTest29 f) s = next .adc ∧
        exec (.sbcTest2B f) s = next .sbc ∧ exec (.orrTest2D f) s = next .orr)

/-- The seven save instructions of the register format: `r2` is shifted, `r3` is the second operand, `r1` takes the
result. -/
def Obligations.RegisterAluResult : Prop :=
  ∀ (f : RegForm FlagSource) (s : State),
    s.executes f.cond → f.af ≠ .reserved → f.shift.kind ≠ .reserved → s.forbidsWrite f.r1 = false →
    let x := s.advance.read f.r2
    ∃ a, shiftOutput f.shift.kind x (s.advance.shiftCount f.shift.count) (srFlags s.sr).c = some a ∧
      let next (fn : AluFn) : Host.Outcome State Fault Refusal :=
        .next (s.advance.aluNext fn (some f.r1) f.af f.shift.kind x a (s.advance.read f.r3))
      exec (.addr f) s = next .add ∧ exec (.adcr f) s = next .adc ∧ exec (.subr f) s = next .sub ∧
      exec (.sbcr f) s = next .sbc ∧ exec (.andr f) s = next .and ∧ exec (.orrr f) s = next .orr ∧
      exec (.xorr f) s = next .xor

/-- The seven test instructions of the register format: flags only; the undocumented four where the platform's mode
is the hardware pattern (log entry 15). -/
def Obligations.RegisterTestFlags : Prop :=
  ∀ (f : RegForm FlagSource) (s : State),
    s.executes f.cond → f.af ≠ .reserved → f.shift.kind ≠ .reserved →
    let x := s.advance.read f.r2
    ∃ a, shiftOutput f.shift.kind x (s.advance.shiftCount f.shift.count) (srFlags s.sr).c = some a ∧
      let next (fn : AluFn) : Host.Outcome State Fault Refusal :=
        .next (s.advance.aluNext fn none f.af f.shift.kind x a (s.advance.read f.r3))
      exec (.cmpr f) s = next .sub ∧ exec (.tsar f) s = next .and ∧ exec (.tsxr f) s = next .xor ∧
      (s.platform.undocumented = .hardwarePattern →
        exec (.addTest38 f) s = next .add ∧ exec (.adcTest39 f) s = next .adc ∧
        exec (.sbcTest3B f) s = next .sbc ∧ exec (.orrTest3D f) s = next .orr)

/-- LOAD of a constant or of a register writes the value to its destination and no flag. -/
def Obligations.RegisterLoads : Prop :=
  (∀ (f : ImmForm FlagSource) (s : State), s.executes f.cond → f.af ≠ .reserved → s.forbidsWrite f.reg = false →
    exec (.loadi f) s = .next (s.advance.write f.reg f.imm)) ∧
  (∀ (f : ShortForm) (s : State), s.executes f.cond → f.af ≠ .reserved → f.shift.kind = .none →
    s.forbidsWrite f.reg = false →
    exec (.loadS f) s = .next (s.advance.write f.reg (s.extend8 f.imm))) ∧
  (∀ (f : RegForm FlagSource) (s : State), s.executes f.cond → f.af ≠ .reserved → f.shift.kind = .none →
    s.forbidsWrite f.r1 = false →
    exec (.loadr f) s = .next (s.advance.write f.r1 (s.advance.read f.r3)))

/-- SHFI, SHFR and SHFT: the addition or disjunction result, with the flags of the shifter. -/
def Obligations.ShiftMetaInstructions : Prop :=
  (∀ (f : ShiftImmForm) (s : State), s.executes f.cond → f.shift.kind ≠ .reserved → s.forbidsWrite f.reg = false →
    let x := s.advance.read f.reg
    ∃ a, shiftOutput f.shift.kind x (s.advance.shiftCount f.shift.count) (srFlags s.sr).c = some a ∧
      exec (.shfi f) s = .next
        (s.advance.aluNext .add (some f.reg) .shift f.shift.kind x a (s.extend8 f.imm))) ∧
  (∀ (f : ShiftRegForm) (s : State), s.executes f.cond → f.shift.kind ≠ .reserved → s.forbidsWrite f.r1 = false →
    let x := s.advance.read f.r2
    ∃ a, shiftOutput f.shift.kind x (s.advance.shiftCount f.shift.count) (srFlags s.sr).c = some a ∧
      exec (.shfr f) s = .next
        (s.advance.aluNext .add (some f.r1) .shift f.shift.kind x a (s.advance.read f.r3))) ∧
  (∀ (f : ShiftForm) (s : State), s.executes f.cond → f.shift.kind ≠ .reserved → s.forbidsWrite f.reg = false →
    let x := s.advance.read f.reg
    ∃ a, shiftOutput f.shift.kind x (s.advance.shiftCount f.shift.count) (srFlags s.sr).c = some a ∧
      exec (.shft f) s = .next
        (s.advance.aluNext .orr (some f.reg) .shift f.shift.kind x a 0))

/-- NOOP changes nothing but the program counter, in both modes, where the status register is as every run leaves
it (bit 13 not stored, an invariant of every step). -/
def Obligations.NoopOnlyAdvances : Prop :=
  ∀ s : State, s.tracing = false → s.sr.getLsbD 13 = false → exec .noop s = .next s.advance

/-! Memory instructions -/

/-- STOR, indirect: the word at the effective address, and no other byte, register or flag; where the platform has no
writable memory nothing at all (log entry 6). In the register form the platform's `mem_shift_target` says what is
shifted (log entry 14), and a shift by a count above 15 gives a free value (log entry 9). -/
def Obligations.StoreIndirect : Prop :=
  (∀ (f : ImmForm Pair) (s : State), s.executes f.cond → Memory.wf s.mem = true →
    let low := s.advance.read (Pair.low f.af)
    let ea := addressOf (s.advance.read (Pair.high f.af)) (low + f.imm)
    s.staysInside low f.imm → s.busError ea = false →
    ∃ t, exec (.storInd f) s = .next t ∧ storedAt s.advance t ea (s.advance.read f.reg)) ∧
  (∀ (f : RegForm Pair) (s : State), s.executes f.cond → Memory.wf s.mem = true → f.shift.kind ≠ .reserved →
    let low := s.advance.read (Pair.low f.af)
    let off := s.advance.offsetWord f.shift (s.advance.read f.r2)
    let ea := addressOf (s.advance.read (Pair.high f.af)) (low + off)
    s.staysInside low off → s.busError ea = false →
    ∃ t, exec (.storIndR f) s = .next t ∧
      storedAt s.advance t ea (s.advance.dataWord f.shift (s.advance.read f.r1)))

/-- STOR, pre-decrement: the address is formed from the decremented low register, the data is the value before the
decrement, and only the low register of the pair changes; where the platform has no writable memory, nothing is
stored (log entry 6). Register form: log entries 9 and 14 as in `StoreIndirect`. -/
def Obligations.StorePreDecrement : Prop :=
  (∀ (f : ImmForm Pair) (s : State), s.executes f.cond → Memory.wf s.mem = true →
    let low := s.advance.read (Pair.low f.af)
    let ea := addressOf (s.advance.read (Pair.high f.af)) (low - 1 + f.imm)
    s.staysInside low 0xFFFF → s.staysInside (low - 1) f.imm → s.busError ea = false →
    ∃ t, exec (.storPre f) s = .next (t.write (Pair.low f.af) (low - 1)) ∧
      storedAt s.advance t ea (s.advance.read f.reg)) ∧
  (∀ (f : RegForm Pair) (s : State), s.executes f.cond → Memory.wf s.mem = true → f.shift.kind ≠ .reserved →
    let low := s.advance.read (Pair.low f.af)
    let off := s.advance.offsetWord f.shift (s.advance.read f.r2)
    let ea := addressOf (s.advance.read (Pair.high f.af)) (low - 1 + off)
    s.staysInside low 0xFFFF → s.staysInside (low - 1) off → s.busError ea = false →
    ∃ t, exec (.storPreR f) s = .next (t.write (Pair.low f.af) (low - 1)) ∧
      storedAt s.advance t ea (s.advance.dataWord f.shift (s.advance.read f.r1)))

/-- LOAD, indirect: the destination takes the word at the effective address; memory and flags are untouched. Where
the platform has nothing at that address the word is a free value (log entry 6). Register form: the platform's
`mem_shift_target` says what is shifted (log entry 14), and a count above 15 gives a free value (log entry 9). -/
def Obligations.LoadIndirect : Prop :=
  (∀ (f : ImmForm Pair) (s : State), s.executes f.cond → s.forbidsWrite f.reg = false →
    let low := s.advance.read (Pair.low f.af)
    let ea := addressOf (s.advance.read (Pair.high f.af)) (low + f.imm)
    s.staysInside low f.imm → s.busError ea = false →
    exec (.loadInd f) s = .next (s.advance.write f.reg (s.busRead .data ea)) ∧
    (s.kindAt ea ≠ .absent → s.busRead .data ea = s.word ea)) ∧
  (∀ (f : RegForm Pair) (s : State), s.executes f.cond → s.forbidsWrite f.r1 = false → f.shift.kind ≠ .reserved →
    let low := s.advance.read (Pair.low f.af)
    let off := s.advance.offsetWord f.shift (s.advance.read f.r2)
    let ea := addressOf (s.advance.read (Pair.high f.af)) (low + off)
    s.staysInside low off → s.busError ea = false →
    exec (.loadIndR f) s =
      .next (s.advance.write f.r1 (s.advance.dataWord f.shift (s.busRead .data ea))))

/-- LOAD, post-increment: the address comes from the old low register, the destination is written first and then
the low register with its increment, so that it wins where the two are one register. Absent addresses and the
register form: log entries 6, 9 and 14 as in `LoadIndirect`. -/
def Obligations.LoadPostIncrement : Prop :=
  (∀ (f : ImmForm Pair) (s : State), s.executes f.cond → s.forbidsWrite f.reg = false →
    let low := s.advance.read (Pair.low f.af)
    let ea := addressOf (s.advance.read (Pair.high f.af)) (low + f.imm)
    s.staysInside low f.imm → s.staysInside low 1 → s.busError ea = false →
    exec (.loadPost f) s =
      .next ((s.advance.write f.reg (s.busRead .data ea)).write (Pair.low f.af) (low + 1))) ∧
  (∀ (f : RegForm Pair) (s : State), s.executes f.cond → s.forbidsWrite f.r1 = false → f.shift.kind ≠ .reserved →
    let low := s.advance.read (Pair.low f.af)
    let off := s.advance.offsetWord f.shift (s.advance.read f.r2)
    let ea := addressOf (s.advance.read (Pair.high f.af)) (low + off)
    s.staysInside low off → s.staysInside low 1 → s.busError ea = false →
    exec (.loadPostR f) s =
      .next ((s.advance.write f.r1 (s.advance.dataWord f.shift (s.busRead .data ea))).write
        (Pair.low f.af) (low + 1)))

/-- `SegAdd` and the effective address: modulo 2^16 on the low register, the segment from the high register, and a
segment overflow exactly where the true sum leaves the segment while SR.A is set. -/
def Obligations.AddressArithmetic : Prop :=
  ∀ (s : State) (k : Pair) (low off : Word),
    (s.staysInside low off →
      s.segAdd low off.toInt = .ok (low + off) ∧
      s.effective k low off = .ok (addressOf (s.read (Pair.high k)) (low + off))) ∧
    (¬ s.staysInside low off →
      s.segAdd low off.toInt = .error (.raise ⟨.segmentOverflow, 3, 0⟩) ∧
      s.effective k low off = .error (.raise ⟨.segmentOverflow, 3, 0⟩))

/-- A data access the platform refuses takes the bus fault of phase 4 with the effective address, and nothing of
the instruction is left: the fault is entered from the state before it. -/
def Obligations.DataBusFault : Prop :=
  (∀ (f : ImmForm Pair) (s : State), condHolds f.cond (srFlags s.sr) = true →
    let low := s.advance.read (Pair.low f.af)
    let ea := addressOf (s.advance.read (Pair.high f.af)) (low + f.imm)
    s.staysInside low f.imm → s.busError ea = true →
    exec (.storInd f) s = takeFault s s.pc ⟨.bus, 4, ea⟩ ∧
    (s.forbidsWrite f.reg = false →
      exec (.loadInd f) s = takeFault s s.pc ⟨.bus, 4, ea⟩ ∧
      (s.staysInside low 1 → exec (.loadPost f) s = takeFault s s.pc ⟨.bus, 4, ea⟩))) ∧
  (∀ (f : ImmForm Pair) (s : State), condHolds f.cond (srFlags s.sr) = true →
    let low := s.advance.read (Pair.low f.af)
    let ea := addressOf (s.advance.read (Pair.high f.af)) (low - 1 + f.imm)
    s.staysInside low 0xFFFF → s.staysInside (low - 1) f.imm → s.busError ea = true →
    exec (.storPre f) s = takeFault s s.pc ⟨.bus, 4, ea⟩) ∧
  (∀ (f : RegForm Pair) (s : State), condHolds f.cond (srFlags s.sr) = true → f.shift.kind ≠ .reserved →
    let low := s.advance.read (Pair.low f.af)
    let off := s.advance.offsetWord f.shift (s.advance.read f.r2)
    let ea := addressOf (s.advance.read (Pair.high f.af)) (low + off)
    s.staysInside low off → s.busError ea = true →
    exec (.storIndR f) s = takeFault s s.pc ⟨.bus, 4, ea⟩ ∧
    (s.forbidsWrite f.r1 = false →
      exec (.loadIndR f) s = takeFault s s.pc ⟨.bus, 4, ea⟩ ∧
      (s.staysInside low 1 → exec (.loadPostR f) s = takeFault s s.pc ⟨.bus, 4, ea⟩))) ∧
  (∀ (f : RegForm Pair) (s : State), condHolds f.cond (srFlags s.sr) = true → f.shift.kind ≠ .reserved →
    let low := s.advance.read (Pair.low f.af)
    let off := s.advance.offsetWord f.shift (s.advance.read f.r2)
    let ea := addressOf (s.advance.read (Pair.high f.af)) (low - 1 + off)
    s.staysInside low 0xFFFF → s.staysInside (low - 1) off → s.busError ea = true →
    exec (.storPreR f) s = takeFault s s.pc ⟨.bus, 4, ea⟩)

/-- A sum that leaves its segment while SR.A is set takes the segment overflow fault, in every memory and
control-flow instruction of both formats, LJMP among them; RETS adds 0 and cannot leave its segment. In the register
form of a memory instruction the platform's `mem_shift_target` says whether the offset is shifted (log entry 14). -/
def Obligations.SegmentOverflowFault : Prop :=
  ∀ s : State,
    let trap := takeFault s s.pc ⟨.segmentOverflow, 3, 0⟩
    (∀ f : ImmForm Pair, condHolds f.cond (srFlags s.sr) = true →
      let low := s.advance.read (Pair.low f.af)
      (¬ s.staysInside low f.imm →
        exec (.storInd f) s = trap ∧ exec (.bran f) s = trap ∧ exec (.brsr f) s = trap ∧
        (s.forbidsWrite f.reg = false → exec (.loadInd f) s = trap ∧ exec (.loadPost f) s = trap) ∧
        (s.isProtected = false → exec (.ljsr f) s = trap ∧
          (∀ d, f.reg = Pair.high d ∨ f.reg = Pair.low d → exec (.ldea f) s = trap))) ∧
      (¬ s.staysInside low 0xFFFF ∨ ¬ s.staysInside (low - 1) f.imm → exec (.storPre f) s = trap) ∧
      (¬ s.staysInside low 1 → s.forbidsWrite f.reg = false → exec (.loadPost f) s = trap)) ∧
    (∀ f : RegForm Pair, condHolds f.cond (srFlags s.sr) = true →
      let low := s.advance.read (Pair.low f.af)
      let off := s.advance.offsetWord f.shift (s.advance.read f.r2)
      (f.shift.kind ≠ .reserved →
        (¬ s.staysInside low off →
          exec (.storIndR f) s = trap ∧
          (s.forbidsWrite f.r1 = false → exec (.loadIndR f) s = trap ∧ exec (.loadPostR f) s = trap)) ∧
        (¬ s.staysInside low 0xFFFF ∨ ¬ s.staysInside (low - 1) off → exec (.storPreR f) s = trap) ∧
        (¬ s.staysInside low 1 → s.forbidsWrite f.r1 = false → exec (.loadPostR f) s = trap)) ∧
      (¬ s.staysInside low (s.advance.read f.r2) →
        exec (.branR f) s = trap ∧ exec (.brsrR f) s = trap ∧
        (s.isProtected = false → exec (.ljsrR f) s = trap ∧
          (∀ d, f.r1 = Pair.high d ∨ f.r1 = Pair.low d → exec (.ldeaR f) s = trap)))) ∧
    (s.isProtected = false →
      (∀ f : JumpForm, condHolds f.cond (srFlags s.sr) = true →
        ¬ s.staysInside (s.advance.read (Pair.low f.pair)) f.imm → exec (.ljmp f) s = trap) ∧
      (∀ f : JumpRegForm, condHolds f.cond (srFlags s.sr) = true →
        ¬ s.staysInside (s.advance.read (Pair.low f.pair)) (s.advance.read f.r2) → exec (.ljmpR f) s = trap))

/-! Control flow -/

/-- LDEA, with LJMP and RETS among its names: the destination pair takes the whole high register of the source pair
and the sum, both read before they are written. -/
def Obligations.LoadEffectiveAddress : Prop :=
  ∀ (s : State) (d : Pair), s.isProtected = false →
    let loaded (src : Pair) (low : Word) : Host.Outcome State Fault Refusal :=
      .next ((s.advance.write (Pair.high d) (s.advance.read (Pair.high src))).write (Pair.low d) low)
    (∀ f : ImmForm Pair, s.executes f.cond → f.reg = Pair.high d ∨ f.reg = Pair.low d →
      let low := s.advance.read (Pair.low f.af)
      s.staysInside low f.imm → exec (.ldea f) s = loaded f.af (low + f.imm)) ∧
    (∀ f : RegForm Pair, s.executes f.cond → f.r1 = Pair.high d ∨ f.r1 = Pair.low d →
      let low := s.advance.read (Pair.low f.af)
      let off := s.advance.read f.r2
      s.staysInside low off → exec (.ldeaR f) s = loaded f.af (low + off)) ∧
    (d = .p → ∀ f : JumpForm, s.executes f.cond →
      let low := s.advance.read (Pair.low f.pair)
      s.staysInside low f.imm → exec (.ljmp f) s = loaded f.pair (low + f.imm)) ∧
    (d = .p → ∀ f : JumpRegForm, s.executes f.cond →
      let low := s.advance.read (Pair.low f.pair)
      let off := s.advance.read f.r2
      s.staysInside low off → exec (.ljmpR f) s = loaded f.pair (low + off)) ∧
    (d = .p → ∀ c : Cond, s.executes c → exec (.rets c) s = loaded .l s.gen.ll)

/-- BRAN writes `pl` and nothing else, in both modes; with base `p` the target is relative to the next
instruction. -/
def Obligations.BranchTarget : Prop :=
  (∀ (f : ImmForm Pair) (s : State), s.executes f.cond →
    let low := s.advance.read (Pair.low f.af)
    s.staysInside low f.imm → exec (.bran f) s = .next { s with pl := low + f.imm }) ∧
  (∀ (f : RegForm Pair) (s : State), s.executes f.cond →
    let low := s.advance.read (Pair.low f.af)
    let off := s.advance.read f.r2
    s.staysInside low off → exec (.branR f) s = .next { s with pl := low + off }) ∧
  (∀ s : State, s.advance.read (Pair.low .p) = s.pl + 2)

/-- LJSR saves the address of the next instruction in `l` and jumps to the target, whose segment is the whole high
register of the source pair. -/
def Obligations.LongSubroutineCall : Prop :=
  ∀ s : State, s.isProtected = false →
    let called (src : Pair) (low : Word) : Host.Outcome State Fault Refusal :=
      .next { s with gen := { s.gen with lh := s.ph, ll := s.pl + 2 }
                     ph := s.advance.read (Pair.high src), pl := low }
    (∀ f : ImmForm Pair, s.executes f.cond →
      let low := s.advance.read (Pair.low f.af)
      s.staysInside low f.imm → exec (.ljsr f) s = called f.af (low + f.imm)) ∧
    (∀ f : RegForm Pair, s.executes f.cond →
      let low := s.advance.read (Pair.low f.af)
      let off := s.advance.read f.r2
      s.staysInside low off → exec (.ljsrR f) s = called f.af (low + off))

/-- BRSR saves the low word of the next instruction's address in `ll` and writes `pl`; `lh` and `ph` stay, in
both modes. -/
def Obligations.BranchToSubroutine : Prop :=
  ∀ s : State,
    let called (low : Word) : Host.Outcome State Fault Refusal :=
      .next { s with gen := { s.gen with ll := s.pl + 2 }, pl := low }
    (∀ f : ImmForm Pair, s.executes f.cond →
      let low := s.advance.read (Pair.low f.af)
      s.staysInside low f.imm → exec (.brsr f) s = called (low + f.imm)) ∧
    (∀ f : RegForm Pair, s.executes f.cond →
      let low := s.advance.read (Pair.low f.af)
      let off := s.advance.read f.r2
      s.staysInside low off → exec (.brsrR f) s = called (low + off))

/-! The exception unit, called by a program -/

/-- EXCP enters level 1 through its vector, saving the address of the next instruction and the whole status
register in LR0, in both modes. -/
def Obligations.SoftwareException : Prop :=
  ∀ (f : UnitForm) (s : State), s.executes f.cond → 0x60 ≤ f.par → s.level = 0 → s.vectorReadable f.par →
    exec (.excp f) s = .next
      { s with
        links := s.links.set 0 ⟨s.ph ++ (s.pl + 2), s.sr &&& 0xDFFF, 0⟩
        sr := s.sr &&& 0x7EFF, level := 1, waiting := false, cause := (0x11 : BitVec 8) ++ f.par
        ph := s.vectorHigh f.par, pl := s.vectorLow f.par }

/-- WAIT sets the wait flag, RETE restores the program counter, the status register and the level from link register
`level - 1`, and RSET clears the status register and the level and jumps through vector 0; each in supervisor
mode, with the cause register written and nothing else changed. -/
def Obligations.WaitReturnReset : Prop :=
  ∀ (f : UnitForm) (s : State), s.executes f.cond → s.isProtected = false →
    exec (.wait f) s = .next { s with pl := s.pl + 2, cause := (0x19 : BitVec 8) ++ f.par, waiting := true } ∧
    (∀ n : Fin 7, s.level = n.succ →
      exec (.rete f) s = .next
        { s with
          ph := (s.links[n.castSucc]).address.extractLsb' 16 16
          pl := (s.links[n.castSucc]).address.extractLsb' 0 16
          sr := (s.links[n.castSucc]).status &&& 0xDFFF
          level := (s.links[n.castSucc]).level, cause := (0x1A : BitVec 8) ++ f.par }) ∧
    (s.vectorReadable 0 →
      exec (.rset f) s = .next
        { s with sr := 0, level := 0, cause := (0x1B : BitVec 8) ++ f.par
                 ph := s.vectorHigh 0, pl := s.vectorLow 0 })

/-- ETFR copies the return address of a link register to `ah:al` if bit 4 of its parameter is set and the return
status to `r7` if bit 5 is; ETTR copies the other way and leaves the return level. -/
def Obligations.LinkRegisterTransfer : Prop :=
  ∀ (f : UnitForm) (s : State) (n : Fin 8), s.executes f.cond → s.isProtected = false →
    f.par.getLsbD 6 = false → f.par.getLsbD 7 = false → f.par.toNat % 16 = n.val →
    let lr := s.links[n]
    let toA := f.par.getLsbD 4
    let toR7 := f.par.getLsbD 5
    exec (.etfr f) s = .next
      { s with
        pl := s.pl + 2, cause := (0x1C : BitVec 8) ++ f.par
        gen := { s.gen with
          ah := if toA then lr.address.extractLsb' 16 16 else s.gen.ah
          al := if toA then lr.address.extractLsb' 0 16 else s.gen.al
          r7 := if toR7 then lr.status else s.gen.r7 } } ∧
    exec (.ettr f) s = .next
      { s with
        pl := s.pl + 2, cause := (0x1D : BitVec 8) ++ f.par
        links := s.links.set n
          ⟨if toA then s.gen.ah ++ s.gen.al else lr.address, if toR7 then s.gen.r7 else lr.status, lr.level⟩ }

/-- COPI, in both formats, and COPR with the same call value do the same, whatever their other fields hold, and the
six named operations are COPI with their operation byte; COPI and COPR complete a WAIT call in supervisor mode. The
call value of the short format is the constant extended as `imm8_extension` says (log entry 13). -/
def Obligations.CallValueDecides : Prop :=
  ∀ (s : State) (f : ImmForm FlagSource),
    (∀ g : ImmForm FlagSource, g.cond = f.cond → g.imm = f.imm → exec (.copi g) s = exec (.copi f) s) ∧
    (∀ g : ShortForm, g.cond = f.cond → s.extend8 g.imm = f.imm → exec (.copiS g) s = exec (.copi f) s) ∧
    (∀ g : RegForm FlagSource, g.cond = f.cond → s.advance.read g.r3 = f.imm →
      exec (.copr g) s = exec (.copi f) s) ∧
    (∀ u : UnitForm, u.cond = f.cond →
      (f.imm = (0x11 : BitVec 8) ++ u.par → exec (.excp u) s = exec (.copi f) s) ∧
      (f.imm = (0x19 : BitVec 8) ++ u.par → exec (.wait u) s = exec (.copi f) s) ∧
      (f.imm = (0x1A : BitVec 8) ++ u.par → exec (.rete u) s = exec (.copi f) s) ∧
      (f.imm = (0x1B : BitVec 8) ++ u.par → exec (.rset u) s = exec (.copi f) s) ∧
      (f.imm = (0x1C : BitVec 8) ++ u.par → exec (.etfr u) s = exec (.copi f) s) ∧
      (f.imm = (0x1D : BitVec 8) ++ u.par → exec (.ettr u) s = exec (.copi f) s)) ∧
    (s.executes f.cond → s.isProtected = false → f.imm.extractLsb' 8 8 = 0x19 →
      exec (.copi f) s = .next { s with pl := s.pl + 2, cause := f.imm, waiting := true } ∧
      (∀ g : RegForm FlagSource, g.cond = f.cond → s.advance.read g.r3 = f.imm →
        exec (.copr g) s = .next { s with pl := s.pl + 2, cause := f.imm, waiting := true }))

/-- A call to an absent coprocessor, or to an unassigned opcode of the exception unit, takes the invalid opcode
fault, unless protected mode forbids its opcode; a coprocessor above 1 is present only where the platform adds it
(log entry 43). -/
def Obligations.InvalidOpcodeFault : Prop :=
  ∀ (f : ImmForm FlagSource) (s : State), condHolds f.cond (srFlags s.sr) = true →
    let id := f.imm.extractLsb' 12 4
    let opc := f.imm.extractLsb' 8 4
    (s.isProtected = false ∨ opc < 8) →
    ((2 ≤ id ∧ id ∉ s.platform.optionalUnits) ∨ (id = 1 ∧ 2 ≤ opc ∧ opc ≤ 8)) →
    exec (.copi f) s = takeFault s s.pc ⟨.invalidOpcode, 3, 0⟩

/-- What protected mode may not do, and the fault it takes instead, with nothing of the instruction done: writing a
high register by a save instruction (SHFI, SHFR and SHFT among them) or a LOAD of any format, LDEA, LJMP, RETS, LJSR, a privileged call, EXCP
below 0x60. -/
def Obligations.PrivilegeViolationFault : Prop :=
  ∀ s : State, s.isProtected = true →
    let trap := takeFault s s.pc ⟨.privilegeViolation, 3, 0⟩
    (∀ f : ImmForm FlagSource, condHolds f.cond (srFlags s.sr) = true →
      (f.af ≠ .reserved → Reg.isHigh f.reg = true →
        exec (.addi f) s = trap ∧ exec (.adci f) s = trap ∧ exec (.subi f) s = trap ∧ exec (.sbci f) s = trap ∧
        exec (.andi f) s = trap ∧ exec (.orri f) s = trap ∧ exec (.xori f) s = trap ∧ exec (.loadi f) s = trap) ∧
      (8 ≤ f.imm.extractLsb' 8 4 → exec (.copi f) s = trap)) ∧
    (∀ f : ShortForm, condHolds f.cond (srFlags s.sr) = true → f.af ≠ .reserved → Reg.isHigh f.reg = true →
      (f.shift.kind ≠ .reserved →
        exec (.addiS f) s = trap ∧ exec (.adciS f) s = trap ∧ exec (.subiS f) s = trap ∧
        exec (.sbciS f) s = trap ∧ exec (.andiS f) s = trap ∧ exec (.orriS f) s = trap ∧
        exec (.xoriS f) s = trap) ∧
      (f.shift.kind = .none → exec (.loadS f) s = trap)) ∧
    (∀ f : RegForm FlagSource, condHolds f.cond (srFlags s.sr) = true →
      (f.af ≠ .reserved → Reg.isHigh f.r1 = true →
        (f.shift.kind ≠ .reserved →
          exec (.addr f) s = trap ∧ exec (.adcr f) s = trap ∧ exec (.subr f) s = trap ∧
          exec (.sbcr f) s = trap ∧ exec (.andr f) s = trap ∧ exec (.orrr f) s = trap ∧
          exec (.xorr f) s = trap) ∧
        (f.shift.kind = .none → exec (.loadr f) s = trap)) ∧
      (8 ≤ (s.advance.read f.r3).extractLsb' 8 4 → exec (.copr f) s = trap)) ∧
    (∀ f : ShiftImmForm, condHolds f.cond (srFlags s.sr) = true → f.shift.kind ≠ .reserved →
      Reg.isHigh f.reg = true → exec (.shfi f) s = trap) ∧
    (∀ f : ShiftRegForm, condHolds f.cond (srFlags s.sr) = true → f.shift.kind ≠ .reserved →
      Reg.isHigh f.r1 = true → exec (.shfr f) s = trap) ∧
    (∀ f : ShiftForm, condHolds f.cond (srFlags s.sr) = true → f.shift.kind ≠ .reserved →
      Reg.isHigh f.reg = true → exec (.shft f) s = trap) ∧
    (∀ f : ImmForm Pair, condHolds f.cond (srFlags s.sr) = true →
      exec (.ljsr f) s = trap ∧
      (Reg.isHigh f.reg = true → exec (.loadInd f) s = trap ∧ exec (.loadPost f) s = trap) ∧
      (∀ d, f.reg = Pair.high d ∨ f.reg = Pair.low d → exec (.ldea f) s = trap)) ∧
    (∀ f : RegForm Pair, condHolds f.cond (srFlags s.sr) = true →
      exec (.ljsrR f) s = trap ∧
      (Reg.isHigh f.r1 = true → f.shift.kind ≠ .reserved →
        exec (.loadIndR f) s = trap ∧ exec (.loadPostR f) s = trap) ∧
      (∀ d, f.r1 = Pair.high d ∨ f.r1 = Pair.low d → exec (.ldeaR f) s = trap)) ∧
    (∀ c : Cond, condHolds c (srFlags s.sr) = true → exec (.rets c) s = trap) ∧
    (∀ f : JumpForm, condHolds f.cond (srFlags s.sr) = true → exec (.ljmp f) s = trap) ∧
    (∀ f : JumpRegForm, condHolds f.cond (srFlags s.sr) = true → exec (.ljmpR f) s = trap) ∧
    (∀ f : UnitForm, condHolds f.cond (srFlags s.sr) = true →
      exec (.wait f) s = trap ∧ exec (.rete f) s = trap ∧ exec (.rset f) s = trap ∧ exec (.etfr f) s = trap ∧
      exec (.ettr f) s = trap ∧ (f.par < 0x60 → exec (.excp f) s = trap))

/-- The encodings the spec refuses are refused when their condition holds: AF = 11 in every ALU instruction and
register LOAD, shift type 111 in every instruction that uses the shifter, a shift on a LOAD of a value, LDEA without a
destination pair, a short COPI whose call value names coprocessor 0, and the undocumented opcodes where the
platform's mode is `refuse`. They are refused even where protected mode would forbid what they do, which is the
model's choice (log entry 28); of two reasons to refuse the shift type comes first. -/
def Obligations.ReservedFormsRefused : Prop :=
  let noSource : Host.Outcome State Fault Refusal := .refused .reservedFlagSource
  let noShift : Host.Outcome State Fault Refusal := .refused .reservedShiftType
  (∀ (f : ImmForm FlagSource) (s : State), condHolds f.cond (srFlags s.sr) = true →
    (f.af = .reserved →
      exec (.addi f) s = noSource ∧ exec (.adci f) s = noSource ∧ exec (.subi f) s = noSource ∧
      exec (.sbci f) s = noSource ∧ exec (.andi f) s = noSource ∧ exec (.orri f) s = noSource ∧
      exec (.xori f) s = noSource ∧ exec (.cmpi f) s = noSource ∧ exec (.tsai f) s = noSource ∧
      exec (.tsxi f) s = noSource ∧ exec (.loadi f) s = noSource ∧
      (s.platform.undocumented = .hardwarePattern →
        exec (.addTest08 f) s = noSource ∧ exec (.adcTest09 f) s = noSource ∧
        exec (.sbcTest0B f) s = noSource ∧ exec (.orrTest0D f) s = noSource)) ∧
    (s.platform.undocumented = .refuse →
      exec (.addTest08 f) s = .refused .undocumentedOpcode ∧
      exec (.adcTest09 f) s = .refused .undocumentedOpcode ∧
      exec (.sbcTest0B f) s = .refused .undocumentedOpcode ∧
      exec (.orrTest0D f) s = .refused .undocumentedOpcode)) ∧
  (∀ (f : ShortForm) (s : State), condHolds f.cond (srFlags s.sr) = true →
    (f.shift.kind = .reserved →
      exec (.addiS f) s = noShift ∧ exec (.adciS f) s = noShift ∧ exec (.subiS f) s = noShift ∧
      exec (.sbciS f) s = noShift ∧ exec (.andiS f) s = noShift ∧ exec (.orriS f) s = noShift ∧
      exec (.xoriS f) s = noShift ∧ exec (.cmpiS f) s = noShift ∧ exec (.tsaiS f) s = noShift ∧
      exec (.tsxiS f) s = noShift ∧
      (s.platform.undocumented = .hardwarePattern →
        exec (.addTest28 f) s = noShift ∧ exec (.adcTest29 f) s = noShift ∧ exec (.sbcTest2B f) s = noShift ∧
        exec (.orrTest2D f) s = noShift)) ∧
    (f.af = .reserved → f.shift.kind ≠ .reserved →
      exec (.addiS f) s = noSource ∧ exec (.adciS f) s = noSource ∧ exec (.subiS f) s = noSource ∧
      exec (.sbciS f) s = noSource ∧ exec (.andiS f) s = noSource ∧ exec (.orriS f) s = noSource ∧
      exec (.xoriS f) s = noSource ∧ exec (.cmpiS f) s = noSource ∧ exec (.tsaiS f) s = noSource ∧
      exec (.tsxiS f) s = noSource ∧
      (s.platform.undocumented = .hardwarePattern →
        exec (.addTest28 f) s = noSource ∧ exec (.adcTest29 f) s = noSource ∧
        exec (.sbcTest2B f) s = noSource ∧ exec (.orrTest2D f) s = noSource)) ∧
    (f.shift.kind ≠ .none → exec (.loadS f) s = .refused .loadWithShift) ∧
    (f.af = .reserved → f.shift.kind = .none → exec (.loadS f) s = noSource) ∧
    (s.platform.undocumented = .refuse →
      exec (.addTest28 f) s = .refused .undocumentedOpcode ∧
      exec (.adcTest29 f) s = .refused .undocumentedOpcode ∧
      exec (.sbcTest2B f) s = .refused .undocumentedOpcode ∧
      exec (.orrTest2D f) s = .refused .undocumentedOpcode) ∧
    ((s.extend8 f.imm).extractLsb' 12 4 = 0 → exec (.copiS f) s = .refused .processingUnitCall)) ∧
  (∀ (f : RegForm FlagSource) (s : State), condHolds f.cond (srFlags s.sr) = true →
    (f.shift.kind = .reserved →
      exec (.addr f) s = noShift ∧ exec (.adcr f) s = noShift ∧ exec (.subr f) s = noShift ∧
      exec (.sbcr f) s = noShift ∧ exec (.andr f) s = noShift ∧ exec (.orrr f) s = noShift ∧
      exec (.xorr f) s = noShift ∧ exec (.cmpr f) s = noShift ∧ exec (.tsar f) s = noShift ∧
      exec (.tsxr f) s = noShift ∧
      (s.platform.undocumented = .hardwarePattern →
        exec (.addTest38 f) s = noShift ∧ exec (.adcTest39 f) s = noShift ∧ exec (.sbcTest3B f) s = noShift ∧
        exec (.orrTest3D f) s = noShift)) ∧
    (f.af = .reserved → f.shift.kind ≠ .reserved →
      exec (.addr f) s = noSource ∧ exec (.adcr f) s = noSource ∧ exec (.subr f) s = noSource ∧
      exec (.sbcr f) s = noSource ∧ exec (.andr f) s = noSource ∧ exec (.orrr f) s = noSource ∧
      exec (.xorr f) s = noSource ∧ exec (.cmpr f) s = noSource ∧ exec (.tsar f) s = noSource ∧
      exec (.tsxr f) s = noSource ∧
      (s.platform.undocumented = .hardwarePattern →
        exec (.addTest38 f) s = noSource ∧ exec (.adcTest39 f) s = noSource ∧
        exec (.sbcTest3B f) s = noSource ∧ exec (.orrTest3D f) s = noSource)) ∧
    (f.shift.kind ≠ .none → exec (.loadr f) s = .refused .loadWithShift) ∧
    (f.af = .reserved → f.shift.kind = .none → exec (.loadr f) s = noSource) ∧
    (s.platform.undocumented = .refuse →
      exec (.addTest38 f) s = .refused .undocumentedOpcode ∧
      exec (.adcTest39 f) s = .refused .undocumentedOpcode ∧
      exec (.sbcTest3B f) s = .refused .undocumentedOpcode ∧
      exec (.orrTest3D f) s = .refused .undocumentedOpcode)) ∧
  (∀ (f : ShiftImmForm) (s : State), condHolds f.cond (srFlags s.sr) = true → f.shift.kind = .reserved →
    exec (.shfi f) s = noShift) ∧
  (∀ (f : ShiftRegForm) (s : State), condHolds f.cond (srFlags s.sr) = true → f.shift.kind = .reserved →
    exec (.shfr f) s = noShift) ∧
  (∀ (f : ShiftForm) (s : State), condHolds f.cond (srFlags s.sr) = true → f.shift.kind = .reserved →
    exec (.shft f) s = noShift) ∧
  (∀ (f : RegForm Pair) (s : State), condHolds f.cond (srFlags s.sr) = true →
    (f.shift.kind = .reserved →
      exec (.storIndR f) s = noShift ∧ exec (.storPreR f) s = noShift ∧ exec (.loadIndR f) s = noShift ∧
      exec (.loadPostR f) s = noShift) ∧
    ((∀ d, f.r1 ≠ Pair.high d ∧ f.r1 ≠ Pair.low d) → exec (.ldeaR f) s = .refused .ldeaDestination)) ∧
  (∀ (f : ImmForm Pair) (s : State), condHolds f.cond (srFlags s.sr) = true →
    (∀ d, f.reg ≠ Pair.high d ∧ f.reg ≠ Pair.low d) → exec (.ldea f) s = .refused .ldeaDestination)

/-- The calls that the spec refuses, in the modes where no fault comes first: those of the exception unit, a call to
coprocessor 0, and one to an optional coprocessor that the platform has (log entries 29 and 43). -/
def Obligations.UnitCallsRefused : Prop :=
  ∀ s : State,
    (∀ f : UnitForm, condHolds f.cond (srFlags s.sr) = true →
      (0x60 ≤ f.par → s.level ≠ 0 → exec (.excp f) s = .refused .excpNested) ∧
      (s.isProtected = false → f.par < 0x60 → exec (.excp f) s = .refused .excpVector) ∧
      (s.isProtected = false → s.level = 0 → exec (.rete f) s = .refused .reteAtLevelZero) ∧
      (s.isProtected = false → f.par.getLsbD 3 = true ∨ f.par.getLsbD 6 = true ∨ f.par.getLsbD 7 = true →
        exec (.etfr f) s = .refused .linkParameter ∧ exec (.ettr f) s = .refused .linkParameter)) ∧
    (∀ f : ImmForm FlagSource, condHolds f.cond (srFlags s.sr) = true →
      let opc := f.imm.extractLsb' 8 4
      (s.isProtected = false ∨ opc < 8) →
      (f.imm.extractLsb' 12 4 = 0 → exec (.copi f) s = .refused .processingUnitCall) ∧
      (f.imm.extractLsb' 12 4 = 1 → opc = 0 ∨ opc = 0xE ∨ opc = 0xF →
        exec (.copi f) s = .refused .internalOperation) ∧
      (2 ≤ f.imm.extractLsb' 12 4 → f.imm.extractLsb' 12 4 ∈ s.platform.optionalUnits →
        exec (.copi f) s = .refused .optionalUnit))

/-! What holds of every instruction -/

/-- After an instruction that began with T set the machine is in supervisor mode at level 7 with T clear, whichever
instruction it was and whether it completed or faulted. -/
def Obligations.TracedInstructionEndsInHandler : Prop :=
  ∀ (i : Instr) (s t : State), s.tracing = true → exec i s = .next t →
    t.level = 7 ∧ t.tracing = false ∧ t.isProtected = false ∧ t.waiting = false

/-- A traced ADDI completes, and the trace fault is entered from the state it leaves, with the next instruction as
return address (rule R344, the spec's decision D19); so is it from any traced instruction whose condition fails. The
vector is open (log entry 10). That every traced instruction ends in a handler is `TracedInstructionEndsInHandler`. -/
def Obligations.TraceFaultTaken : Prop :=
  (∀ (f : ImmForm FlagSource) (s : State), condHolds f.cond (srFlags s.sr) = true → s.tracing = true →
    f.af ≠ .reserved → s.forbidsWrite f.reg = false →
    let x := s.advance.read f.reg
    let u := s.advance.aluNext .add (some f.reg) f.af .none x ⟨x, none⟩ f.imm
    exec (.addi f) s = takeFault u (u.ph ++ u.pl) ⟨.instructionTrace, 5, 0⟩) ∧
  (∀ (i : Instr) (s : State), condHolds i.cond (srFlags s.sr) = false → s.tracing = true →
    exec i s = takeFault { s with pl := s.pl + 2 } (s.ph ++ (s.pl + 2)) ⟨.instructionTrace, 5, 0⟩)

/-- No instruction changes the platform's parameters, the count of steps, the trace of events or the interrupt
latches; the first three are the model's own fields (log entries 5, 6 and 7). -/
def Obligations.EnvironmentUntouched : Prop :=
  ∀ (i : Instr) (s t : State), exec i s = .next t →
    t.platform = s.platform ∧ t.tick = s.tick ∧ t.inputs = s.inputs ∧ t.pending = s.pending

/-! Faults -/

/-- The type codes of the faults: bus 1, alignment 2, segment overflow 3, invalid opcode 4, privilege violation 5, and 6,
double fault, for any of them at level 7. The codes of the trace fault and of the level-five conflict are open
but for not being 0 (log entry 10). -/
def Obligations.FaultNumbers : Prop :=
  ∀ s : State,
    (s.level ≠ 7 →
      (s.faultCode .bus, s.faultCode .alignment, s.faultCode .segmentOverflow, s.faultCode .invalidOpcode,
        s.faultCode .privilegeViolation) = (1, 2, 3, 4, 5)) ∧
    (s.level = 7 → ∀ k, s.faultCode k = 6) ∧
    (∀ k, 1 ≤ (s.faultCode k).toNat)

/-- A fault taken below level 7: LR6 saves, LR7 takes the bus address and the phase and type, P, T and the wait flag
are cleared, the level becomes 7 and the program counter is read from the fault's vector. -/
def Obligations.FaultEntry : Prop :=
  ∀ (s : State) (ra : Long) (f : FaultInfo), s.level ≠ 7 →
    let v : BitVec 8 := BitVec.ofNat 8 (s.faultCode f.kind).toNat
    s.vectorReadable v →
    takeFault s ra f = .next
      { s with
        links := (s.links.set 6 ⟨ra, s.statusWord, s.level⟩).set 7
          ⟨BitVec.ofNat 32 f.bus.toNat, BitVec.ofNat 16 (f.phase.toNat + 16 * (s.faultCode f.kind).toNat),
            (s.links[7]).level⟩
        sr := s.sr &&& 0x7EFF, level := 7, waiting := false
        ph := s.vectorHigh v, pl := s.vectorLow v, cause := BitVec.ofNat 16 (0x1E00 + v.toNat) }

/-- A fault taken at level 7 is a double fault: vector 6, the double-fault flag, type 6, and in bits 11 to 8 the type
that was being handled. -/
def Obligations.DoubleFault : Prop :=
  ∀ (s : State) (ra : Long) (f : FaultInfo), s.level = 7 → s.vectorReadable 6 →
    let original := ((s.links[7]).status.extractLsb' 4 4).toNat
    takeFault s ra f = .next
      { s with
        links := (s.links.set 6 ⟨ra, s.statusWord, 7⟩).set 7
          ⟨BitVec.ofNat 32 f.bus.toNat, BitVec.ofNat 16 (f.phase.toNat + 8 + 16 * 6 + 256 * original),
            (s.links[7]).level⟩
        sr := s.sr &&& 0x7EFF, waiting := false
        ph := s.vectorHigh 6, pl := s.vectorLow 6, cause := 0x1E06 }

/-- A bus error on the vector-table read of a fault entry stops the machine. -/
def Obligations.VectorReadStops : Prop :=
  ∀ (s : State) (ra : Long) (f : FaultInfo),
    let v : BitVec 8 := BitVec.ofNat 8 (s.faultCode f.kind).toNat
    ¬ s.vectorReadable v → takeFault s ra f = .fault .vectorReadBusError

/-! The step -/

/-- A step that finds nothing to do between instructions runs the instruction at the program counter: if the two
words there decode to `i`, the step is `exec i` on the machine with the pin events taken. -/
def Obligations.StepRunsDecodedInstruction : Prop :=
  ∀ (s r : State) (lines : Lines) (i : Instr), s.takePins = (⟨none, lines⟩, r) →
    let u := r.latch lines
    r.conflict lines = false → u.candidate = none → u.waiting = false →
    u.pl.getLsbD 0 = false → u.busError (addressOf u.ph u.pl) = false →
    u.busError (addressOf u.ph (u.pl + 1)) = false → ¬ (u.pl = 0xFFFE ∧ u.trapsOverflow = true) →
    i.wellFormed = true →
    decode [u.busRead .fetch (addressOf u.ph u.pl), u.busRead .fetch (addressOf u.ph (u.pl + 1))] = .ok (i, []) →
    step s = exec i u

/-- The four faults of the fetch, in their order; each saves the address of the instruction. -/
def Obligations.FetchFaults : Prop :=
  ∀ (s r : State) (lines : Lines), s.takePins = (⟨none, lines⟩, r) →
    let u := r.latch lines
    r.conflict lines = false → u.candidate = none → u.waiting = false →
    let x := addressOf u.ph u.pl
    let y := addressOf u.ph (u.pl + 1)
    let trap (k : FaultKind) (phase : BitVec 3) (bus : Address) := takeFault u (u.ph ++ u.pl) ⟨k, phase, bus⟩
    (u.pl.getLsbD 0 = true → step s = trap .alignment 0 0) ∧
    (u.pl.getLsbD 0 = false →
      (u.busError x = true → step s = trap .bus 0 x) ∧
      (u.busError x = false →
        (u.busError y = true → step s = trap .bus 1 y) ∧
        (u.busError y = false → u.pl = 0xFFFE → u.trapsOverflow = true →
          step s = trap .segmentOverflow 1 0)))

/-- While the wait flag is set and nothing is entered, a step fetches nothing: it only takes the pin events and
latches the enabled lines. -/
def Obligations.WaitingStepIdles : Prop :=
  ∀ (s r : State) (lines : Lines), s.takePins = (⟨none, lines⟩, r) →
    let u := r.latch lines
    r.conflict lines = false → u.candidate = none → u.waiting = true → step s = .next u

/-- An asserted line is dropped if it is disabled and latched if it is enabled, but for the assertion that raises
the level-five conflict; a latch is never lost by an assertion. -/
def Obligations.LineAcceptance : Prop :=
  ∀ (s : State) (lines : Lines) (k : Line),
    ((s.latch lines).pending.get k = true ↔
      s.pending.get k = true ∨
        (lines.get k = true ∧ s.lineEnabled k = true ∧ ¬ (k = .one ∧ s.level = 6))) ∧
    s.latch lines = { s with pending := (s.latch lines).pending }

/-- The line entered is the eligible one of the highest level: latched, enabled, above the current level, and no
other such line is above it; none is eligible at level 7. -/
def Obligations.HighestLineWins : Prop :=
  ∀ s : State,
    (∀ k, s.candidate = some k →
      s.pending.get k = true ∧ s.lineEnabled k = true ∧ s.level < (Line.link k).succ ∧
      ∀ j, s.pending.get j = true → s.lineEnabled j = true → s.level < (Line.link j).succ →
        Line.link j ≤ Line.link k) ∧
    (s.candidate = none ↔
      ∀ j, s.pending.get j = true → s.lineEnabled j = true → ¬ s.level < (Line.link j).succ) ∧
    (s.level = 7 → s.candidate = none)

/-- A step that enters a hardware exception: the latch is cleared, the link register of the line's level saves the
next instruction, the level and the program counter are those of the line, and no instruction runs. -/
def Obligations.HardwareExceptionTaken : Prop :=
  ∀ (s r : State) (lines : Lines) (k : Line), s.takePins = (⟨none, lines⟩, r) →
    let u := r.latch lines
    r.conflict lines = false → u.candidate = some k → u.vectorReadable (Line.vector k) →
    step s = .next
      { u with
        pending := u.pending.clear k
        links := u.links.set (Line.link k).castSucc ⟨u.ph ++ u.pl, u.statusWord, u.level⟩
        sr := u.sr &&& 0x7EFF, level := (Line.link k).succ, waiting := false
        ph := u.vectorHigh (Line.vector k), pl := u.vectorLow (Line.vector k)
        cause := (0x1F : BitVec 8) ++ Line.vector k }

/-- Line 1 asserted while it is enabled and its handler runs: the conflict fault is taken at once, and the assertion
is not latched. -/
def Obligations.LevelFiveConflict : Prop :=
  ∀ (s r : State) (lines : Lines), s.takePins = (⟨none, lines⟩, r) →
    lines.one = true → r.sr.getLsbD 9 = true → r.level = 6 →
    let u := r.latch lines
    step s = takeFault u (u.ph ++ u.pl) ⟨.levelFiveConflict, 0, 0⟩ ∧ u.pending.one = r.pending.one

/-! What holds of every step -/

/-- Protected mode confines a program: as long as a step leaves the machine in protected mode, the four high
registers, which name the segments it can reach, are as before. -/
def Obligations.SegmentsFixedInProtectedMode : Prop :=
  ∀ s t : State, s.isProtected = true → step s = .next t → t.isProtected = true →
    t.segments = s.segments

/-- In protected mode a step changes no word of memory outside the segments that the four high registers name. -/
def Obligations.StoresConfinedToSegments : Prop :=
  ∀ (s t : State) (a : Address), s.Inv → s.isProtected = true → step s = .next t → t.word a ≠ s.word a →
    a.extractLsb' 16 8 ∈ [s.gen.lh.extractLsb' 0 8, s.gen.ah.extractLsb' 0 8, s.gen.sh.extractLsb' 0 8,
      s.ph.extractLsb' 0 8]

/-- Protected mode is left only by a reset or by an exception entry: the level rises, or is 7 and stays 7 where a
fault is taken at level 7, and the wait flag is clear. -/
def Obligations.ProtectedModeLeftByException : Prop :=
  ∀ s t : State, s.isProtected = true → step s = .next t → t.isProtected = false →
    (∃ v, s.takePins.1.reset = some v) ∨
      ((s.level < t.level ∨ (s.level = 7 ∧ t.level = 7)) ∧ t.waiting = false)

/-- A trap and its return: RETE in the handler that EXCP entered gives back the program counter after the EXCP, the
status register and the level, and every register and all of memory are as they were. -/
def Obligations.TrapThenReturn : Prop :=
  ∀ (f g : UnitForm) (s t u : State), s.executes f.cond → s.sr.getLsbD 13 = false → 0x60 ≤ f.par →
    exec (.excp f) s = .next t → condHolds g.cond (srFlags t.sr) = true →
    exec (.rete g) t = .next u →
    u.pc = s.ph ++ (s.pl + 2) ∧ u.sr = s.sr ∧ u.level = s.level ∧ u.gen = s.gen ∧ u.mem = s.mem

end Statements
end

