-- ==== Sys2Proof/Laws/Memory.lean ====
section
/-! SUPPORT. The laws of memory: every operation keeps the canonical form, a word reads back as it was written, and
a write leaves every other word alone. -/

namespace Sys2Proof.Machine

/-- A canonical form from a higher cell on is one from any lower cell on. -/
theorem Memory.wfFrom_mono {low high : Nat} {m : List Host.Cell} (h : low ≤ high)
    (hm : Memory.wfFrom high m = true) : Memory.wfFrom low m = true := by
  cases m with
  | nil => rfl
  | cons c rest =>
    obtain ⟨k, b⟩ := c
    simp only [Memory.wfFrom, Bool.and_eq_true, decide_eq_true_eq] at hm ⊢
    exact ⟨⟨⟨by omega, hm.1.1.2⟩, hm.1.2⟩, hm.2⟩

/-- Below its first cell a canonical memory reads as unlisted. -/
theorem Memory.byte_of_wfFrom {low a : Nat} {m : List Host.Cell} (hm : Memory.wfFrom low m = true)
    (h : a < low) : Memory.byte m a = Memory.unlisted := by
  cases m with
  | nil => rfl
  | cons c rest =>
    obtain ⟨k, b⟩ := c
    simp only [Memory.wfFrom, Bool.and_eq_true, decide_eq_true_eq] at hm
    simp only [Memory.byte]
    rw [if_pos (by omega)]

theorem Memory.wfFrom_setByte {low a : Nat} {m : List Host.Cell} (v : Byte)
    (hm : Memory.wfFrom low m = true) (hlow : low ≤ a) (ha : a < Memory.size) :
    Memory.wfFrom low (Memory.setByte m a v) = true := by
  induction m generalizing low with
  | nil =>
    simp only [Memory.setByte]
    split <;> rename_i hv
    · rfl
    · simp [Memory.wfFrom, hlow, ha, hv]
  | cons c rest ih =>
    obtain ⟨k, b⟩ := c
    simp only [Memory.wfFrom, Bool.and_eq_true, decide_eq_true_eq] at hm
    obtain ⟨⟨⟨h1, h2⟩, h3⟩, h4⟩ := hm
    simp only [Memory.setByte]
    split
    · split <;> rename_i hv
      · simp [Memory.wfFrom, h1, h2, h3, h4]
      · have : a + 1 ≤ k := by omega
        simp [Memory.wfFrom, hlow, ha, hv, h2, h3, h4, this]
    · split
      · split <;> rename_i hv
        · exact Memory.wfFrom_mono (by omega) h4
        · subst a; simp [Memory.wfFrom, h1, h2, hv, h4]
      · have := ih h4 (by omega)
        simp [Memory.wfFrom, h1, h2, h3, this]

/-- Writing a cell inside the address space keeps the canonical form. -/
theorem Memory.wf_setByte {m : List Host.Cell} {a : Nat} (v : Byte) (hm : Memory.wf m = true)
    (ha : a < Memory.size) : Memory.wf (Memory.setByte m a v) = true :=
  Memory.wfFrom_setByte v hm (Nat.zero_le a) ha

theorem Memory.byte_setByte_from {low a b : Nat} {m : List Host.Cell} (v : Byte)
    (hm : Memory.wfFrom low m = true) :
    Memory.byte (Memory.setByte m a v) b = if b = a then v else Memory.byte m b := by
  induction m generalizing low with
  | nil =>
    simp only [Memory.setByte, Memory.byte]
    split <;> rename_i hv
    · by_cases h : b = a <;> simp [Memory.byte, h, hv]
    · simp only [Memory.byte]; split <;> split <;> first | rfl | omega
  | cons c rest ih =>
    obtain ⟨k, w⟩ := c
    simp only [Memory.wfFrom, Bool.and_eq_true, decide_eq_true_eq] at hm
    obtain ⟨⟨⟨h1, h2⟩, h3⟩, h4⟩ := hm
    simp only [Memory.setByte]
    split
    · split <;> rename_i hv
      · by_cases h : b = a
        · subst h; simp [Memory.byte, *]
        · simp [h]
      · simp only [Memory.byte]
        by_cases h : b = a
        · simp [h]
        · simp only [h, if_false]
          split
          · rw [if_pos (by omega)]
          · rfl
    · split
      · subst a
        split <;> rename_i hv
        · by_cases h : b = k
          · subst h; simp [Memory.byte_of_wfFrom h4 (Nat.lt_succ_self b), hv]
          · simp only [h, if_false, Memory.byte]
            split
            · exact Memory.byte_of_wfFrom h4 (by omega)
            · rfl
        · simp only [Memory.byte]
          by_cases h : b = k
          · simp [h]
          · simp [h]
      · simp only [Memory.byte]
        rw [ih h4]
        by_cases h : b = a
        · subst h
          rw [if_neg (by omega), if_neg (by omega), if_pos rfl, if_pos rfl]
        · simp [h]

/-- A cell reads back as written, and every other cell as before. -/
theorem Memory.byte_setByte {m : List Host.Cell} (hm : Memory.wf m = true) (a b : Nat) (v : Byte) :
    Memory.byte (Memory.setByte m a v) b = if b = a then v else Memory.byte m b :=
  Memory.byte_setByte_from v hm

theorem highCell_lt (a : Address) : highCell a + 1 < Memory.size := by
  have := a.isLt
  simp only [highCell, Memory.size]; omega

/-- Writing a word keeps the canonical form. -/
theorem Memory.wf_setWord {m : List Host.Cell} (hm : Memory.wf m = true) (a : Address) (v : Word) :
    Memory.wf (Memory.setWord m a v) = true :=
  Memory.wf_setByte _ (Memory.wf_setByte _ hm (Nat.lt_of_succ_lt (highCell_lt a))) (highCell_lt a)

/-- The bytes after a word is written: the two of that word, and every other one as before. -/
theorem Memory.byte_setWord {m : List Host.Cell} (hm : Memory.wf m = true) (a : Address) (v : Word) (b : Nat) :
    Memory.byte (Memory.setWord m a v) b =
      if b = highCell a + 1 then v.extractLsb' 0 8
      else if b = highCell a then v.extractLsb' 8 8 else Memory.byte m b := by
  have h1 := Memory.wf_setByte (v.extractLsb' 8 8) hm (Nat.lt_of_succ_lt (highCell_lt a))
  rw [Memory.setWord, Memory.byte_setByte h1, Memory.byte_setByte hm]

/-- A word reads back as written. -/
theorem Memory.word_setWord_same {m : List Host.Cell} (hm : Memory.wf m = true) (a : Address) (v : Word) :
    Memory.word (Memory.setWord m a v) a = v := by
  have h : highCell a ≠ highCell a + 1 := by omega
  rw [Memory.word, Memory.byte_setWord hm, Memory.byte_setWord hm, if_neg h, if_pos rfl, if_pos rfl]
  grind

/-- Writing a word leaves every other word alone. -/
theorem Memory.word_setWord_other {m : List Host.Cell} (hm : Memory.wf m = true) {a b : Address} (v : Word)
    (h : b ≠ a) : Memory.word (Memory.setWord m a v) b = Memory.word m b := by
  have hn : b.toNat ≠ a.toNat := fun e => h (BitVec.eq_of_toNat_eq e)
  have ha : highCell a = 2 * a.toNat := rfl
  have hb : highCell b = 2 * b.toNat := rfl
  rw [Memory.word, Memory.byte_setWord hm, Memory.byte_setWord hm, if_neg (by omega), if_neg (by omega),
    if_neg (by omega), if_neg (by omega), Memory.word]

/-- Storing keeps the canonical form of the machine's memory. -/
theorem State.wf_storeWord {s t : State} {ea : Address} {v : Word} (hm : Memory.wf s.mem = true)
    (h : s.storeWord ea v = .ok t) : Memory.wf t.mem = true := by
  simp only [State.storeWord] at h
  split at h
  · cases h
  · cases h
    simp only [State.busWrite]
    split
    · exact Memory.wf_setWord hm ea v
    · exact hm
    · exact hm

/-- The memory of the machine after reset is in canonical form. -/
theorem State.wf_reset : Memory.wf State.reset.mem = true := rfl

end Sys2Proof.Machine
end

