-- ==== Sys2Proof/Laws/State.lean ====
section
/-! SUPPORT. What each named update does to each field, so that no proof unfolds a record update. -/

namespace Sys2Proof.Machine

variable (s : State)

@[simp] theorem State.withSr_sr (x : Word) : (s.withSr x).sr = x := rfl
@[simp] theorem State.withSr_gen (x : Word) : (s.withSr x).gen = s.gen := rfl
@[simp] theorem State.withSr_ph (x : Word) : (s.withSr x).ph = s.ph := rfl
@[simp] theorem State.withSr_pl (x : Word) : (s.withSr x).pl = s.pl := rfl
@[simp] theorem State.withSr_links (x : Word) : (s.withSr x).links = s.links := rfl
@[simp] theorem State.withSr_cause (x : Word) : (s.withSr x).cause = s.cause := rfl
@[simp] theorem State.withSr_level (x : Word) : (s.withSr x).level = s.level := rfl
@[simp] theorem State.withSr_waiting (x : Word) : (s.withSr x).waiting = s.waiting := rfl
@[simp] theorem State.withSr_pending (x : Word) : (s.withSr x).pending = s.pending := rfl
@[simp] theorem State.withSr_mem (x : Word) : (s.withSr x).mem = s.mem := rfl
@[simp] theorem State.withSr_platform (x : Word) : (s.withSr x).platform = s.platform := rfl
@[simp] theorem State.withSr_tick (x : Word) : (s.withSr x).tick = s.tick := rfl
@[simp] theorem State.withSr_inputs (x : Word) : (s.withSr x).inputs = s.inputs := rfl

@[simp] theorem State.withGen_sr (x : GenRegs) : (s.withGen x).sr = s.sr := rfl
@[simp] theorem State.withGen_gen (x : GenRegs) : (s.withGen x).gen = x := rfl
@[simp] theorem State.withGen_ph (x : GenRegs) : (s.withGen x).ph = s.ph := rfl
@[simp] theorem State.withGen_pl (x : GenRegs) : (s.withGen x).pl = s.pl := rfl
@[simp] theorem State.withGen_links (x : GenRegs) : (s.withGen x).links = s.links := rfl
@[simp] theorem State.withGen_cause (x : GenRegs) : (s.withGen x).cause = s.cause := rfl
@[simp] theorem State.withGen_level (x : GenRegs) : (s.withGen x).level = s.level := rfl
@[simp] theorem State.withGen_waiting (x : GenRegs) : (s.withGen x).waiting = s.waiting := rfl
@[simp] theorem State.withGen_pending (x : GenRegs) : (s.withGen x).pending = s.pending := rfl
@[simp] theorem State.withGen_mem (x : GenRegs) : (s.withGen x).mem = s.mem := rfl
@[simp] theorem State.withGen_platform (x : GenRegs) : (s.withGen x).platform = s.platform := rfl
@[simp] theorem State.withGen_tick (x : GenRegs) : (s.withGen x).tick = s.tick := rfl
@[simp] theorem State.withGen_inputs (x : GenRegs) : (s.withGen x).inputs = s.inputs := rfl

@[simp] theorem State.withPh_sr (x : Word) : (s.withPh x).sr = s.sr := rfl
@[simp] theorem State.withPh_gen (x : Word) : (s.withPh x).gen = s.gen := rfl
@[simp] theorem State.withPh_ph (x : Word) : (s.withPh x).ph = x := rfl
@[simp] theorem State.withPh_pl (x : Word) : (s.withPh x).pl = s.pl := rfl
@[simp] theorem State.withPh_links (x : Word) : (s.withPh x).links = s.links := rfl
@[simp] theorem State.withPh_cause (x : Word) : (s.withPh x).cause = s.cause := rfl
@[simp] theorem State.withPh_level (x : Word) : (s.withPh x).level = s.level := rfl
@[simp] theorem State.withPh_waiting (x : Word) : (s.withPh x).waiting = s.waiting := rfl
@[simp] theorem State.withPh_pending (x : Word) : (s.withPh x).pending = s.pending := rfl
@[simp] theorem State.withPh_mem (x : Word) : (s.withPh x).mem = s.mem := rfl
@[simp] theorem State.withPh_platform (x : Word) : (s.withPh x).platform = s.platform := rfl
@[simp] theorem State.withPh_tick (x : Word) : (s.withPh x).tick = s.tick := rfl
@[simp] theorem State.withPh_inputs (x : Word) : (s.withPh x).inputs = s.inputs := rfl

@[simp] theorem State.withPl_sr (x : Word) : (s.withPl x).sr = s.sr := rfl
@[simp] theorem State.withPl_gen (x : Word) : (s.withPl x).gen = s.gen := rfl
@[simp] theorem State.withPl_ph (x : Word) : (s.withPl x).ph = s.ph := rfl
@[simp] theorem State.withPl_pl (x : Word) : (s.withPl x).pl = x := rfl
@[simp] theorem State.withPl_links (x : Word) : (s.withPl x).links = s.links := rfl
@[simp] theorem State.withPl_cause (x : Word) : (s.withPl x).cause = s.cause := rfl
@[simp] theorem State.withPl_level (x : Word) : (s.withPl x).level = s.level := rfl
@[simp] theorem State.withPl_waiting (x : Word) : (s.withPl x).waiting = s.waiting := rfl
@[simp] theorem State.withPl_pending (x : Word) : (s.withPl x).pending = s.pending := rfl
@[simp] theorem State.withPl_mem (x : Word) : (s.withPl x).mem = s.mem := rfl
@[simp] theorem State.withPl_platform (x : Word) : (s.withPl x).platform = s.platform := rfl
@[simp] theorem State.withPl_tick (x : Word) : (s.withPl x).tick = s.tick := rfl
@[simp] theorem State.withPl_inputs (x : Word) : (s.withPl x).inputs = s.inputs := rfl

@[simp] theorem State.withLinks_sr (x : Vector LinkReg 8) : (s.withLinks x).sr = s.sr := rfl
@[simp] theorem State.withLinks_gen (x : Vector LinkReg 8) : (s.withLinks x).gen = s.gen := rfl
@[simp] theorem State.withLinks_ph (x : Vector LinkReg 8) : (s.withLinks x).ph = s.ph := rfl
@[simp] theorem State.withLinks_pl (x : Vector LinkReg 8) : (s.withLinks x).pl = s.pl := rfl
@[simp] theorem State.withLinks_links (x : Vector LinkReg 8) : (s.withLinks x).links = x := rfl
@[simp] theorem State.withLinks_cause (x : Vector LinkReg 8) : (s.withLinks x).cause = s.cause := rfl
@[simp] theorem State.withLinks_level (x : Vector LinkReg 8) : (s.withLinks x).level = s.level := rfl
@[simp] theorem State.withLinks_waiting (x : Vector LinkReg 8) : (s.withLinks x).waiting = s.waiting := rfl
@[simp] theorem State.withLinks_pending (x : Vector LinkReg 8) : (s.withLinks x).pending = s.pending := rfl
@[simp] theorem State.withLinks_mem (x : Vector LinkReg 8) : (s.withLinks x).mem = s.mem := rfl
@[simp] theorem State.withLinks_platform (x : Vector LinkReg 8) : (s.withLinks x).platform = s.platform := rfl
@[simp] theorem State.withLinks_tick (x : Vector LinkReg 8) : (s.withLinks x).tick = s.tick := rfl
@[simp] theorem State.withLinks_inputs (x : Vector LinkReg 8) : (s.withLinks x).inputs = s.inputs := rfl

@[simp] theorem State.withCause_sr (x : Word) : (s.withCause x).sr = s.sr := rfl
@[simp] theorem State.withCause_gen (x : Word) : (s.withCause x).gen = s.gen := rfl
@[simp] theorem State.withCause_ph (x : Word) : (s.withCause x).ph = s.ph := rfl
@[simp] theorem State.withCause_pl (x : Word) : (s.withCause x).pl = s.pl := rfl
@[simp] theorem State.withCause_links (x : Word) : (s.withCause x).links = s.links := rfl
@[simp] theorem State.withCause_cause (x : Word) : (s.withCause x).cause = x := rfl
@[simp] theorem State.withCause_level (x : Word) : (s.withCause x).level = s.level := rfl
@[simp] theorem State.withCause_waiting (x : Word) : (s.withCause x).waiting = s.waiting := rfl
@[simp] theorem State.withCause_pending (x : Word) : (s.withCause x).pending = s.pending := rfl
@[simp] theorem State.withCause_mem (x : Word) : (s.withCause x).mem = s.mem := rfl
@[simp] theorem State.withCause_platform (x : Word) : (s.withCause x).platform = s.platform := rfl
@[simp] theorem State.withCause_tick (x : Word) : (s.withCause x).tick = s.tick := rfl
@[simp] theorem State.withCause_inputs (x : Word) : (s.withCause x).inputs = s.inputs := rfl

@[simp] theorem State.withLevel_sr (x : Fin 8) : (s.withLevel x).sr = s.sr := rfl
@[simp] theorem State.withLevel_gen (x : Fin 8) : (s.withLevel x).gen = s.gen := rfl
@[simp] theorem State.withLevel_ph (x : Fin 8) : (s.withLevel x).ph = s.ph := rfl
@[simp] theorem State.withLevel_pl (x : Fin 8) : (s.withLevel x).pl = s.pl := rfl
@[simp] theorem State.withLevel_links (x : Fin 8) : (s.withLevel x).links = s.links := rfl
@[simp] theorem State.withLevel_cause (x : Fin 8) : (s.withLevel x).cause = s.cause := rfl
@[simp] theorem State.withLevel_level (x : Fin 8) : (s.withLevel x).level = x := rfl
@[simp] theorem State.withLevel_waiting (x : Fin 8) : (s.withLevel x).waiting = s.waiting := rfl
@[simp] theorem State.withLevel_pending (x : Fin 8) : (s.withLevel x).pending = s.pending := rfl
@[simp] theorem State.withLevel_mem (x : Fin 8) : (s.withLevel x).mem = s.mem := rfl
@[simp] theorem State.withLevel_platform (x : Fin 8) : (s.withLevel x).platform = s.platform := rfl
@[simp] theorem State.withLevel_tick (x : Fin 8) : (s.withLevel x).tick = s.tick := rfl
@[simp] theorem State.withLevel_inputs (x : Fin 8) : (s.withLevel x).inputs = s.inputs := rfl

@[simp] theorem State.withWaiting_sr (x : Bool) : (s.withWaiting x).sr = s.sr := rfl
@[simp] theorem State.withWaiting_gen (x : Bool) : (s.withWaiting x).gen = s.gen := rfl
@[simp] theorem State.withWaiting_ph (x : Bool) : (s.withWaiting x).ph = s.ph := rfl
@[simp] theorem State.withWaiting_pl (x : Bool) : (s.withWaiting x).pl = s.pl := rfl
@[simp] theorem State.withWaiting_links (x : Bool) : (s.withWaiting x).links = s.links := rfl
@[simp] theorem State.withWaiting_cause (x : Bool) : (s.withWaiting x).cause = s.cause := rfl
@[simp] theorem State.withWaiting_level (x : Bool) : (s.withWaiting x).level = s.level := rfl
@[simp] theorem State.withWaiting_waiting (x : Bool) : (s.withWaiting x).waiting = x := rfl
@[simp] theorem State.withWaiting_pending (x : Bool) : (s.withWaiting x).pending = s.pending := rfl
@[simp] theorem State.withWaiting_mem (x : Bool) : (s.withWaiting x).mem = s.mem := rfl
@[simp] theorem State.withWaiting_platform (x : Bool) : (s.withWaiting x).platform = s.platform := rfl
@[simp] theorem State.withWaiting_tick (x : Bool) : (s.withWaiting x).tick = s.tick := rfl
@[simp] theorem State.withWaiting_inputs (x : Bool) : (s.withWaiting x).inputs = s.inputs := rfl

@[simp] theorem State.withPending_sr (x : Lines) : (s.withPending x).sr = s.sr := rfl
@[simp] theorem State.withPending_gen (x : Lines) : (s.withPending x).gen = s.gen := rfl
@[simp] theorem State.withPending_ph (x : Lines) : (s.withPending x).ph = s.ph := rfl
@[simp] theorem State.withPending_pl (x : Lines) : (s.withPending x).pl = s.pl := rfl
@[simp] theorem State.withPending_links (x : Lines) : (s.withPending x).links = s.links := rfl
@[simp] theorem State.withPending_cause (x : Lines) : (s.withPending x).cause = s.cause := rfl
@[simp] theorem State.withPending_level (x : Lines) : (s.withPending x).level = s.level := rfl
@[simp] theorem State.withPending_waiting (x : Lines) : (s.withPending x).waiting = s.waiting := rfl
@[simp] theorem State.withPending_pending (x : Lines) : (s.withPending x).pending = x := rfl
@[simp] theorem State.withPending_mem (x : Lines) : (s.withPending x).mem = s.mem := rfl
@[simp] theorem State.withPending_platform (x : Lines) : (s.withPending x).platform = s.platform := rfl
@[simp] theorem State.withPending_tick (x : Lines) : (s.withPending x).tick = s.tick := rfl
@[simp] theorem State.withPending_inputs (x : Lines) : (s.withPending x).inputs = s.inputs := rfl

@[simp] theorem State.withMem_sr (x : List Host.Cell) : (s.withMem x).sr = s.sr := rfl
@[simp] theorem State.withMem_gen (x : List Host.Cell) : (s.withMem x).gen = s.gen := rfl
@[simp] theorem State.withMem_ph (x : List Host.Cell) : (s.withMem x).ph = s.ph := rfl
@[simp] theorem State.withMem_pl (x : List Host.Cell) : (s.withMem x).pl = s.pl := rfl
@[simp] theorem State.withMem_links (x : List Host.Cell) : (s.withMem x).links = s.links := rfl
@[simp] theorem State.withMem_cause (x : List Host.Cell) : (s.withMem x).cause = s.cause := rfl
@[simp] theorem State.withMem_level (x : List Host.Cell) : (s.withMem x).level = s.level := rfl
@[simp] theorem State.withMem_waiting (x : List Host.Cell) : (s.withMem x).waiting = s.waiting := rfl
@[simp] theorem State.withMem_pending (x : List Host.Cell) : (s.withMem x).pending = s.pending := rfl
@[simp] theorem State.withMem_mem (x : List Host.Cell) : (s.withMem x).mem = x := rfl
@[simp] theorem State.withMem_platform (x : List Host.Cell) : (s.withMem x).platform = s.platform := rfl
@[simp] theorem State.withMem_tick (x : List Host.Cell) : (s.withMem x).tick = s.tick := rfl
@[simp] theorem State.withMem_inputs (x : List Host.Cell) : (s.withMem x).inputs = s.inputs := rfl

@[simp] theorem State.withTick_sr (x : Nat) : (s.withTick x).sr = s.sr := rfl
@[simp] theorem State.withTick_gen (x : Nat) : (s.withTick x).gen = s.gen := rfl
@[simp] theorem State.withTick_ph (x : Nat) : (s.withTick x).ph = s.ph := rfl
@[simp] theorem State.withTick_pl (x : Nat) : (s.withTick x).pl = s.pl := rfl
@[simp] theorem State.withTick_links (x : Nat) : (s.withTick x).links = s.links := rfl
@[simp] theorem State.withTick_cause (x : Nat) : (s.withTick x).cause = s.cause := rfl
@[simp] theorem State.withTick_level (x : Nat) : (s.withTick x).level = s.level := rfl
@[simp] theorem State.withTick_waiting (x : Nat) : (s.withTick x).waiting = s.waiting := rfl
@[simp] theorem State.withTick_pending (x : Nat) : (s.withTick x).pending = s.pending := rfl
@[simp] theorem State.withTick_mem (x : Nat) : (s.withTick x).mem = s.mem := rfl
@[simp] theorem State.withTick_platform (x : Nat) : (s.withTick x).platform = s.platform := rfl
@[simp] theorem State.withTick_tick (x : Nat) : (s.withTick x).tick = x := rfl
@[simp] theorem State.withTick_inputs (x : Nat) : (s.withTick x).inputs = s.inputs := rfl

@[simp] theorem State.withInputs_sr (x : List Pins) : (s.withInputs x).sr = s.sr := rfl
@[simp] theorem State.withInputs_gen (x : List Pins) : (s.withInputs x).gen = s.gen := rfl
@[simp] theorem State.withInputs_ph (x : List Pins) : (s.withInputs x).ph = s.ph := rfl
@[simp] theorem State.withInputs_pl (x : List Pins) : (s.withInputs x).pl = s.pl := rfl
@[simp] theorem State.withInputs_links (x : List Pins) : (s.withInputs x).links = s.links := rfl
@[simp] theorem State.withInputs_cause (x : List Pins) : (s.withInputs x).cause = s.cause := rfl
@[simp] theorem State.withInputs_level (x : List Pins) : (s.withInputs x).level = s.level := rfl
@[simp] theorem State.withInputs_waiting (x : List Pins) : (s.withInputs x).waiting = s.waiting := rfl
@[simp] theorem State.withInputs_pending (x : List Pins) : (s.withInputs x).pending = s.pending := rfl
@[simp] theorem State.withInputs_mem (x : List Pins) : (s.withInputs x).mem = s.mem := rfl
@[simp] theorem State.withInputs_platform (x : List Pins) : (s.withInputs x).platform = s.platform := rfl
@[simp] theorem State.withInputs_tick (x : List Pins) : (s.withInputs x).tick = s.tick := rfl
@[simp] theorem State.withInputs_inputs (x : List Pins) : (s.withInputs x).inputs = x := rfl

/-! The derived readings, under updates that leave the status register and the platform alone -/

@[simp] theorem State.withGen_isProtected (x : GenRegs) : (s.withGen x).isProtected = s.isProtected := rfl
@[simp] theorem State.withPh_isProtected (x : Word) : (s.withPh x).isProtected = s.isProtected := rfl
@[simp] theorem State.withPl_isProtected (x : Word) : (s.withPl x).isProtected = s.isProtected := rfl
@[simp] theorem State.withLinks_isProtected (x : Vector LinkReg 8) : (s.withLinks x).isProtected = s.isProtected := rfl
@[simp] theorem State.withCause_isProtected (x : Word) : (s.withCause x).isProtected = s.isProtected := rfl
@[simp] theorem State.withLevel_isProtected (x : Fin 8) : (s.withLevel x).isProtected = s.isProtected := rfl
@[simp] theorem State.withWaiting_isProtected (x : Bool) : (s.withWaiting x).isProtected = s.isProtected := rfl
@[simp] theorem State.withPending_isProtected (x : Lines) : (s.withPending x).isProtected = s.isProtected := rfl
@[simp] theorem State.withMem_isProtected (x : List Host.Cell) : (s.withMem x).isProtected = s.isProtected := rfl
@[simp] theorem State.withTick_isProtected (x : Nat) : (s.withTick x).isProtected = s.isProtected := rfl
@[simp] theorem State.withInputs_isProtected (x : List Pins) : (s.withInputs x).isProtected = s.isProtected := rfl
@[simp] theorem State.withGen_trapsOverflow (x : GenRegs) : (s.withGen x).trapsOverflow = s.trapsOverflow := rfl
@[simp] theorem State.withPh_trapsOverflow (x : Word) : (s.withPh x).trapsOverflow = s.trapsOverflow := rfl
@[simp] theorem State.withPl_trapsOverflow (x : Word) : (s.withPl x).trapsOverflow = s.trapsOverflow := rfl
@[simp] theorem State.withLinks_trapsOverflow (x : Vector LinkReg 8) : (s.withLinks x).trapsOverflow = s.trapsOverflow := rfl
@[simp] theorem State.withCause_trapsOverflow (x : Word) : (s.withCause x).trapsOverflow = s.trapsOverflow := rfl
@[simp] theorem State.withLevel_trapsOverflow (x : Fin 8) : (s.withLevel x).trapsOverflow = s.trapsOverflow := rfl
@[simp] theorem State.withWaiting_trapsOverflow (x : Bool) : (s.withWaiting x).trapsOverflow = s.trapsOverflow := rfl
@[simp] theorem State.withPending_trapsOverflow (x : Lines) : (s.withPending x).trapsOverflow = s.trapsOverflow := rfl
@[simp] theorem State.withMem_trapsOverflow (x : List Host.Cell) : (s.withMem x).trapsOverflow = s.trapsOverflow := rfl
@[simp] theorem State.withTick_trapsOverflow (x : Nat) : (s.withTick x).trapsOverflow = s.trapsOverflow := rfl
@[simp] theorem State.withInputs_trapsOverflow (x : List Pins) : (s.withInputs x).trapsOverflow = s.trapsOverflow := rfl
@[simp] theorem State.withGen_tracing (x : GenRegs) : (s.withGen x).tracing = s.tracing := rfl
@[simp] theorem State.withPh_tracing (x : Word) : (s.withPh x).tracing = s.tracing := rfl
@[simp] theorem State.withPl_tracing (x : Word) : (s.withPl x).tracing = s.tracing := rfl
@[simp] theorem State.withLinks_tracing (x : Vector LinkReg 8) : (s.withLinks x).tracing = s.tracing := rfl
@[simp] theorem State.withCause_tracing (x : Word) : (s.withCause x).tracing = s.tracing := rfl
@[simp] theorem State.withLevel_tracing (x : Fin 8) : (s.withLevel x).tracing = s.tracing := rfl
@[simp] theorem State.withWaiting_tracing (x : Bool) : (s.withWaiting x).tracing = s.tracing := rfl
@[simp] theorem State.withPending_tracing (x : Lines) : (s.withPending x).tracing = s.tracing := rfl
@[simp] theorem State.withMem_tracing (x : List Host.Cell) : (s.withMem x).tracing = s.tracing := rfl
@[simp] theorem State.withTick_tracing (x : Nat) : (s.withTick x).tracing = s.tracing := rfl
@[simp] theorem State.withInputs_tracing (x : List Pins) : (s.withInputs x).tracing = s.tracing := rfl
@[simp] theorem State.withSr_busError (x : Word) (a : Address) :
    (s.withSr x).busError a = s.busError a := rfl
@[simp] theorem State.withGen_busError (x : GenRegs) (a : Address) :
    (s.withGen x).busError a = s.busError a := rfl
@[simp] theorem State.withPh_busError (x : Word) (a : Address) :
    (s.withPh x).busError a = s.busError a := rfl
@[simp] theorem State.withPl_busError (x : Word) (a : Address) :
    (s.withPl x).busError a = s.busError a := rfl
@[simp] theorem State.withLinks_busError (x : Vector LinkReg 8) (a : Address) :
    (s.withLinks x).busError a = s.busError a := rfl
@[simp] theorem State.withCause_busError (x : Word) (a : Address) :
    (s.withCause x).busError a = s.busError a := rfl
@[simp] theorem State.withLevel_busError (x : Fin 8) (a : Address) :
    (s.withLevel x).busError a = s.busError a := rfl
@[simp] theorem State.withWaiting_busError (x : Bool) (a : Address) :
    (s.withWaiting x).busError a = s.busError a := rfl
@[simp] theorem State.withPending_busError (x : Lines) (a : Address) :
    (s.withPending x).busError a = s.busError a := rfl
@[simp] theorem State.withMem_busError (x : List Host.Cell) (a : Address) :
    (s.withMem x).busError a = s.busError a := rfl
@[simp] theorem State.withTick_busError (x : Nat) (a : Address) :
    (s.withTick x).busError a = s.busError a := rfl
@[simp] theorem State.withInputs_busError (x : List Pins) (a : Address) :
    (s.withInputs x).busError a = s.busError a := rfl
@[simp] theorem State.withSr_kindAt (x : Word) (a : Address) :
    (s.withSr x).kindAt a = s.kindAt a := rfl
@[simp] theorem State.withGen_kindAt (x : GenRegs) (a : Address) :
    (s.withGen x).kindAt a = s.kindAt a := rfl
@[simp] theorem State.withPh_kindAt (x : Word) (a : Address) :
    (s.withPh x).kindAt a = s.kindAt a := rfl
@[simp] theorem State.withPl_kindAt (x : Word) (a : Address) :
    (s.withPl x).kindAt a = s.kindAt a := rfl
@[simp] theorem State.withLinks_kindAt (x : Vector LinkReg 8) (a : Address) :
    (s.withLinks x).kindAt a = s.kindAt a := rfl
@[simp] theorem State.withCause_kindAt (x : Word) (a : Address) :
    (s.withCause x).kindAt a = s.kindAt a := rfl
@[simp] theorem State.withLevel_kindAt (x : Fin 8) (a : Address) :
    (s.withLevel x).kindAt a = s.kindAt a := rfl
@[simp] theorem State.withWaiting_kindAt (x : Bool) (a : Address) :
    (s.withWaiting x).kindAt a = s.kindAt a := rfl
@[simp] theorem State.withPending_kindAt (x : Lines) (a : Address) :
    (s.withPending x).kindAt a = s.kindAt a := rfl
@[simp] theorem State.withMem_kindAt (x : List Host.Cell) (a : Address) :
    (s.withMem x).kindAt a = s.kindAt a := rfl
@[simp] theorem State.withTick_kindAt (x : Nat) (a : Address) :
    (s.withTick x).kindAt a = s.kindAt a := rfl
@[simp] theorem State.withInputs_kindAt (x : List Pins) (a : Address) :
    (s.withInputs x).kindAt a = s.kindAt a := rfl
@[simp] theorem State.withSr_busRead (x : Word) (k : Access) (a : Address) :
    (s.withSr x).busRead k a = s.busRead k a := rfl
@[simp] theorem State.withGen_busRead (x : GenRegs) (k : Access) (a : Address) :
    (s.withGen x).busRead k a = s.busRead k a := rfl
@[simp] theorem State.withPh_busRead (x : Word) (k : Access) (a : Address) :
    (s.withPh x).busRead k a = s.busRead k a := rfl
@[simp] theorem State.withPl_busRead (x : Word) (k : Access) (a : Address) :
    (s.withPl x).busRead k a = s.busRead k a := rfl
@[simp] theorem State.withLinks_busRead (x : Vector LinkReg 8) (k : Access) (a : Address) :
    (s.withLinks x).busRead k a = s.busRead k a := rfl
@[simp] theorem State.withCause_busRead (x : Word) (k : Access) (a : Address) :
    (s.withCause x).busRead k a = s.busRead k a := rfl
@[simp] theorem State.withLevel_busRead (x : Fin 8) (k : Access) (a : Address) :
    (s.withLevel x).busRead k a = s.busRead k a := rfl
@[simp] theorem State.withWaiting_busRead (x : Bool) (k : Access) (a : Address) :
    (s.withWaiting x).busRead k a = s.busRead k a := rfl
@[simp] theorem State.withPending_busRead (x : Lines) (k : Access) (a : Address) :
    (s.withPending x).busRead k a = s.busRead k a := rfl
@[simp] theorem State.withInputs_busRead (x : List Pins) (k : Access) (a : Address) :
    (s.withInputs x).busRead k a = s.busRead k a := rfl

@[simp] theorem State.withPc_sr (x : Long) : (s.withPc x).sr = s.sr := rfl
@[simp] theorem State.withPc_gen (x : Long) : (s.withPc x).gen = s.gen := rfl
@[simp] theorem State.withPc_ph (x : Long) : (s.withPc x).ph = x.extractLsb' 16 16 := rfl
@[simp] theorem State.withPc_pl (x : Long) : (s.withPc x).pl = x.extractLsb' 0 16 := rfl
@[simp] theorem State.withPc_links (x : Long) : (s.withPc x).links = s.links := rfl
@[simp] theorem State.withPc_cause (x : Long) : (s.withPc x).cause = s.cause := rfl
@[simp] theorem State.withPc_level (x : Long) : (s.withPc x).level = s.level := rfl
@[simp] theorem State.withPc_waiting (x : Long) : (s.withPc x).waiting = s.waiting := rfl
@[simp] theorem State.withPc_pending (x : Long) : (s.withPc x).pending = s.pending := rfl
@[simp] theorem State.withPc_mem (x : Long) : (s.withPc x).mem = s.mem := rfl
@[simp] theorem State.withPc_platform (x : Long) : (s.withPc x).platform = s.platform := rfl
@[simp] theorem State.withPc_tick (x : Long) : (s.withPc x).tick = s.tick := rfl
@[simp] theorem State.withPc_inputs (x : Long) : (s.withPc x).inputs = s.inputs := rfl

@[simp] theorem State.advance_sr : s.advance.sr = s.sr := rfl
@[simp] theorem State.advance_gen : s.advance.gen = s.gen := rfl
@[simp] theorem State.advance_ph : s.advance.ph = s.ph := rfl
@[simp] theorem State.advance_pl : s.advance.pl = s.pl + 2 := rfl
@[simp] theorem State.advance_links : s.advance.links = s.links := rfl
@[simp] theorem State.advance_cause : s.advance.cause = s.cause := rfl
@[simp] theorem State.advance_level : s.advance.level = s.level := rfl
@[simp] theorem State.advance_waiting : s.advance.waiting = s.waiting := rfl
@[simp] theorem State.advance_pending : s.advance.pending = s.pending := rfl
@[simp] theorem State.advance_mem : s.advance.mem = s.mem := rfl
@[simp] theorem State.advance_platform : s.advance.platform = s.platform := rfl
@[simp] theorem State.advance_tick : s.advance.tick = s.tick := rfl
@[simp] theorem State.advance_inputs : s.advance.inputs = s.inputs := rfl
@[simp] theorem State.advance_isProtected : s.advance.isProtected = s.isProtected := rfl
@[simp] theorem State.advance_trapsOverflow : s.advance.trapsOverflow = s.trapsOverflow := rfl
@[simp] theorem State.advance_tracing : s.advance.tracing = s.tracing := rfl
@[simp] theorem State.advance_statusWord : s.advance.statusWord = s.statusWord := rfl
@[simp] theorem State.advance_busError (a : Address) : s.advance.busError a = s.busError a := rfl
@[simp] theorem State.advance_kindAt (a : Address) : s.advance.kindAt a = s.kindAt a := rfl
@[simp] theorem State.advance_busRead (k : Access) (a : Address) : s.advance.busRead k a = s.busRead k a := rfl

/-! A register write touches one register: nothing outside `sr`, `gen`, `ph` and `pl` -/

@[simp] theorem State.write_links (r : Reg) (v : Word) : (s.write r v).links = s.links := by cases r <;> rfl
@[simp] theorem State.write_cause (r : Reg) (v : Word) : (s.write r v).cause = s.cause := by cases r <;> rfl
@[simp] theorem State.write_level (r : Reg) (v : Word) : (s.write r v).level = s.level := by cases r <;> rfl
@[simp] theorem State.write_waiting (r : Reg) (v : Word) : (s.write r v).waiting = s.waiting := by cases r <;> rfl
@[simp] theorem State.write_pending (r : Reg) (v : Word) : (s.write r v).pending = s.pending := by cases r <;> rfl
@[simp] theorem State.write_mem (r : Reg) (v : Word) : (s.write r v).mem = s.mem := by cases r <;> rfl
@[simp] theorem State.write_platform (r : Reg) (v : Word) : (s.write r v).platform = s.platform := by cases r <;> rfl
@[simp] theorem State.write_tick (r : Reg) (v : Word) : (s.write r v).tick = s.tick := by cases r <;> rfl
@[simp] theorem State.write_inputs (r : Reg) (v : Word) : (s.write r v).inputs = s.inputs := by cases r <;> rfl
@[simp] theorem State.write_busError (r : Reg) (v : Word) (a : Address) :
    (s.write r v).busError a = s.busError a := by cases r <;> rfl
@[simp] theorem State.write_kindAt (r : Reg) (v : Word) (a : Address) :
    (s.write r v).kindAt a = s.kindAt a := by cases r <;> rfl
@[simp] theorem State.write_busRead (r : Reg) (v : Word) (k : Access) (a : Address) :
    (s.write r v).busRead k a = s.busRead k a := by cases r <;> rfl

/-! Bus reads and writes by what is at the address -/

theorem State.busRead_memory {s : State} {a : Address} (k : Access) (h : s.kindAt a ≠ .absent) :
    s.busRead k a = Memory.word s.mem a := by
  cases hk : s.kindAt a <;> simp_all [State.busRead]

theorem State.busRead_absent {s : State} {a : Address} (k : Access) (h : s.kindAt a = .absent) :
    s.busRead k a = Config.unmapped s.tick k a := by
  simp [State.busRead, h]

theorem State.busWrite_ram {s : State} {a : Address} (v : Word) (h : s.kindAt a = .ram) :
    s.busWrite a v = s.withMem (Memory.setWord s.mem a v) := by
  simp [State.busWrite, h]

theorem State.busWrite_dropped {s : State} {a : Address} (v : Word) (h : s.kindAt a ≠ .ram) :
    s.busWrite a v = s := by
  cases hk : s.kindAt a <;> simp_all [State.busWrite]

/-- A bus write changes memory and nothing else, and memory only by the word written. -/
theorem State.busWrite_eq (s : State) (a : Address) (v : Word) :
    s.busWrite a v = s ∨ s.busWrite a v = s.withMem (Memory.setWord s.mem a v) := by
  by_cases h : s.kindAt a = .ram
  · exact .inr (s.busWrite_ram v h)
  · exact .inl (s.busWrite_dropped v h)

/-- A register other than `sr` that is written reads as the value written. -/
theorem State.read_write_same (r : Reg) (v : Word) (h : r ≠ .sr) : (s.write r v).read r = v := by
  cases r <;> first | rfl | contradiction

/-- Writing one register leaves the reading of every other one alone, `sr` apart. -/
theorem State.read_write_other (r q : Reg) (v : Word) (h : q ≠ r) (hq : q ≠ .sr) :
    (s.write r v).read q = s.read q := by
  cases r <;> cases q <;> first | rfl | contradiction

/-- Writing a register other than `sr` leaves the status register alone. -/
theorem State.write_sr_other (r : Reg) (v : Word) (h : r ≠ .sr) : (s.write r v).sr = s.sr := by
  cases r <;> first | rfl | contradiction

@[simp] theorem State.write_sr_self (v : Word) : (s.write .sr v).sr = s.filterSr v := rfl

end Sys2Proof.Machine
end

