-- ==== Sys2Proof/Laws/Ops.lean ====
section
/-! SUPPORT. For each shared operation, once, everything it can do: if it completes, what it leaves. Later proofs cite
these lemmas and do not unfold the operations. -/

namespace Sys2Proof.Machine

/-! Sequencing -/

@[simp] theorem ok_bind {α β : Type} (x : α) (f : α → Except Stop β) :
    ((Except.ok x : Except Stop α) >>= f) = f x := rfl

@[simp] theorem error_bind {α β : Type} (e : Stop) (f : α → Except Stop β) :
    ((Except.error e : Except Stop α) >>= f) = .error e := rfl

/-- A sequence that completes has completed its first part. -/
theorem bind_eq_ok {α β : Type} {x : Except Stop α} {f : α → Except Stop β} {b : β}
    (h : (x >>= f) = .ok b) : ∃ a, x = .ok a ∧ f a = .ok b := by
  cases x with
  | ok a => exact ⟨a, rfl, h⟩
  | error e => cases h

@[simp] theorem raiseIf_false (f : FaultInfo) : raiseIf false f = .ok () := rfl
@[simp] theorem raiseIf_true (f : FaultInfo) : raiseIf true f = .error (.raise f) := rfl
@[simp] theorem refuseIf_false (r : Refusal) : refuseIf false r = .ok () := rfl
@[simp] theorem refuseIf_true (r : Refusal) : refuseIf true r = .error (.refuse r) := rfl

theorem raiseIf_ok {b : Bool} {f : FaultInfo} {u : Unit} (h : raiseIf b f = .ok u) : b = false := by
  cases b
  · rfl
  · cases h

theorem refuseIf_ok {b : Bool} {r : Refusal} {u : Unit} (h : refuseIf b r = .ok u) : b = false := by
  cases b
  · rfl
  · cases h

/-- A refusal for a field value that is not the refused one does not happen. -/
theorem refuseIf_ne {α : Type} [DecidableEq α] {a b : α} (r : Refusal) (h : a ≠ b) :
    refuseIf (a == b) r = .ok () := by
  simp [beq_eq_false_iff_ne.mpr h]

/-- An undocumented opcode follows the hardware pattern where the platform's mode says so (rule R178). -/
theorem undocumented_pattern {body : State → Except Stop State} {s : State}
    (h : s.platform.undocumented = .hardwarePattern) : undocumented body s = body s := by
  simp only [undocumented, h]; rfl

/-! One instruction -/

theorem runInstr_skip {c : Cond} {s : State} {body : State → Except Stop State}
    (h : condHolds c (srFlags s.sr) = false) : runInstr c s body = finish s (.ok s.advance) := by
  simp [runInstr, h]

theorem runInstr_run {c : Cond} {s : State} {body : State → Except Stop State}
    (h : condHolds c (srFlags s.sr) = true) : runInstr c s body = finish s (body s.advance) := by
  simp [runInstr, h]

theorem finish_ok {s t : State} (h : s.tracing = false) : finish s (.ok t) = .next t := by
  simp [finish, h]

theorem finish_traced {s t : State} (h : s.tracing = true) :
    finish s (.ok t) = takeFault t t.pc ⟨.instructionTrace, 5, 0⟩ := by
  simp [finish, h]

@[simp] theorem finish_raise (s : State) (f : FaultInfo) :
    finish s (.error (.raise f)) = takeFault s s.pc f := rfl
@[simp] theorem finish_refuse (s : State) (r : Refusal) : finish s (.error (.refuse r)) = .refused r := rfl
@[simp] theorem finish_halt (s : State) (f : Fault) : finish s (.error (.halt f)) = .fault f := rfl

/-- How an instruction comes to a next state: its condition failed, it completed, or it raised a fault; a
completed one, condition failed or not, is followed by the trace fault if T was set. -/
theorem runInstr_next {c : Cond} {s t : State} {body : State → Except Stop State}
    (h : runInstr c s body = .next t) :
    (∃ u, (u = s.advance ∨ body s.advance = .ok u) ∧
      ((s.tracing = false ∧ t = u) ∨ (s.tracing = true ∧ takeFault u u.pc ⟨.instructionTrace, 5, 0⟩ = .next t))) ∨
    ∃ f, body s.advance = .error (.raise f) ∧ takeFault s s.pc f = .next t := by
  have key : ∀ u, finish s (.ok u) = .next t →
      ((s.tracing = false ∧ t = u) ∨
        (s.tracing = true ∧ takeFault u u.pc ⟨.instructionTrace, 5, 0⟩ = .next t)) := by
    intro u hu
    by_cases ht : s.tracing = true
    · rw [finish_traced ht] at hu; exact .inr ⟨ht, hu⟩
    · have ht : s.tracing = false := by simpa using ht
      rw [finish_ok ht] at hu; cases hu; exact .inl ⟨ht, rfl⟩
  by_cases hc : condHolds c (srFlags s.sr) = true
  · rw [runInstr_run hc] at h
    cases hb : body s.advance with
    | ok u => rw [hb] at h; exact .inl ⟨u, .inr rfl, key u h⟩
    | error e =>
      rw [hb] at h
      cases e with
      | raise f => exact .inr ⟨f, rfl, h⟩
      | refuse r => cases h
      | halt f => cases h
  · rw [runInstr_skip (by simpa using hc)] at h
    exact .inl ⟨s.advance, .inl rfl, key _ h⟩

/-! Address arithmetic and data accesses -/

theorem State.segAdd_ok {s : State} {low x : Word} {delta : Int} (h : s.segAdd low delta = .ok x) :
    x = BitVec.ofInt 16 ((low.toNat : Int) + delta) ∧
      (s.trapsOverflow = true → 0 ≤ (low.toNat : Int) + delta ∧ (low.toNat : Int) + delta ≤ 0xFFFF) := by
  simp only [State.segAdd] at h
  split at h <;> rename_i hc
  · cases h
  · cases h
    refine ⟨rfl, fun ht => ?_⟩
    simp only [ht, and_true, not_or, not_lt] at hc
    exact hc

theorem State.effective_ok {s : State} {pair : Pair} {low off : Word} {ea : Address}
    (h : s.effective pair low off = .ok ea) :
    ∃ l, s.segAdd low off.toInt = .ok l ∧ ea = addressOf (s.read (Pair.high pair)) l := by
  obtain ⟨l, hl, he⟩ := bind_eq_ok h
  cases he; exact ⟨l, hl, rfl⟩

theorem State.loadWord_ok {s : State} {ea : Address} {v : Word} (h : s.loadWord ea = .ok v) :
    s.busError ea = false ∧ v = s.busRead .data ea := by
  simp only [State.loadWord] at h
  split at h <;> rename_i hb
  · cases h
  · cases h; exact ⟨by simpa using hb, rfl⟩

theorem State.storeWord_ok {s t : State} {ea : Address} {v : Word} (h : s.storeWord ea v = .ok t) :
    s.busError ea = false ∧ t = s.busWrite ea v := by
  simp only [State.storeWord] at h
  split at h <;> rename_i hb
  · cases h
  · cases h; exact ⟨by simpa using hb, rfl⟩

theorem State.shifted_ok {s : State} {sh : Shift} {v : Word} {out : ShiftOut} (h : s.shifted sh v = .ok out) :
    shiftOutput sh.kind v (s.shiftCount sh.count) (srFlags s.sr).c = some out := by
  simp only [State.shifted] at h
  split at h <;> rename_i ho
  · cases h; exact ho
  · cases h

/-- Every shift type but the reserved one has an output, for every count (rules R131 to R139). -/
theorem shiftOutput_some {k : ShiftType} (v n : Word) (c : Bool) (h : k ≠ .reserved) :
    ∃ out, shiftOutput k v n c = some out := by
  simp only [shiftOutput]
  split
  · cases k <;> first | contradiction | exact ⟨_, rfl⟩
  · exact ⟨_, rfl⟩

/-- The word a memory instruction shifts is the shifter's result (rule R231). -/
theorem State.shiftedWord_eq {s : State} {sh : Shift} {v : Word} {out : ShiftOut}
    (h : shiftOutput sh.kind v (s.shiftCount sh.count) (srFlags s.sr).c = some out) :
    s.shiftedWord sh v = out.res := by
  simp only [State.shiftedWord, h]

@[simp] theorem State.shiftedWord_noShift (s : State) (v : Word) : s.shiftedWord noShift v = v := rfl

@[simp] theorem State.dataWord_noShift (s : State) (v : Word) : s.dataWord noShift v = v := by
  simp only [State.dataWord]; split <;> rfl

@[simp] theorem State.offsetWord_noShift (s : State) (v : Word) : s.offsetWord noShift v = v := by
  simp only [State.offsetWord]; split <;> rfl

/-! Exceptions -/

theorem State.readVector_ok {s : State} {v : BitVec 8} {target : Long} (h : s.readVector v = .ok target) :
    s.busError (vectorAddress v) = false ∧ s.busError (vectorAddress v + 1) = false ∧
      target = s.busRead .vector (vectorAddress v) ++ s.busRead .vector (vectorAddress v + 1) := by
  simp only [State.readVector] at h
  split at h <;> rename_i hb
  · cases h
  · cases h
    simp only [Bool.or_eq_true, not_or, Bool.not_eq_true] at hb
    exact ⟨hb.1, hb.2, rfl⟩

/-- A vector read that the platform answers completes. -/
theorem State.readVector_readable {s : State} {v : BitVec 8} (h : s.busError (vectorAddress v) = false)
    (k : s.busError (vectorAddress v + 1) = false) :
    s.readVector v = .ok (s.busRead .vector (vectorAddress v) ++ s.busRead .vector (vectorAddress v + 1)) := by
  simp only [State.readVector, h, k, Bool.or_self, Bool.false_eq_true, if_false]

/-- An exception entry whose vector the platform answers completes (rule R330). -/
theorem State.exceptionEntry_readable {s : State} {n : Fin 7} {v : BitVec 8} {ra : Long}
    (h : s.busError (vectorAddress v) = false) (k : s.busError (vectorAddress v + 1) = false) :
    s.exceptionEntry n v ra = .ok { s with
      links := s.links.set n.castSucc ⟨ra, s.statusWord, s.level⟩
      sr := s.sr &&& 0x7EFF
      level := n.succ
      waiting := false
      ph := s.busRead .vector (vectorAddress v)
      pl := s.busRead .vector (vectorAddress v + 1) } := by
  simp only [State.exceptionEntry, State.readVector_readable h k]
  congr 2
  · exact BitVec.extractLsb'_append_eq_left
  · exact BitVec.extractLsb'_append_eq_right

/-- What an exception entry leaves (rule R330). -/
theorem State.exceptionEntry_ok {s t : State} {n : Fin 7} {v : BitVec 8} {ra : Long}
    (h : s.exceptionEntry n v ra = .ok t) :
    ∃ target, s.readVector v = .ok target ∧
      t = { s with
        links := s.links.set n.castSucc ⟨ra, s.statusWord, s.level⟩
        sr := s.sr &&& 0x7EFF
        level := n.succ
        waiting := false
        ph := target.extractLsb' 16 16
        pl := target.extractLsb' 0 16 } := by
  simp only [State.exceptionEntry] at h
  split at h <;> rename_i x hx
  · cases h
  · cases h; exact ⟨x, hx, rfl⟩

/-- What a fault entry leaves (rule R333): an entry at level 7, with LR7 and the cause register written. -/
theorem takeFault_next {s t : State} {ra : Long} {f : FaultInfo} (h : takeFault s ra f = .next t) :
    ∃ u metadata cause, s.exceptionEntry 6 ((0 : BitVec 4) ++ s.faultCode f.kind) ra = .ok u ∧
      t = (u.withLinks (u.links.set 7 metadata)).withCause cause := by
  simp only [takeFault, State.faultEntry] at h
  split at h <;> rename_i x hx
  · cases h
    split at hx <;> rename_i y hy
    · cases hx
    · cases hx; exact ⟨_, _, _, hy, rfl⟩
  · cases h

/-- The fields of the state a fault entry leaves. -/
theorem takeFault_fields {s t : State} {ra : Long} {f : FaultInfo} (h : takeFault s ra f = .next t) :
    t.level = 7 ∧ t.waiting = false ∧ t.sr = s.sr &&& 0x7EFF ∧ t.gen = s.gen ∧ t.mem = s.mem ∧
      t.pending = s.pending ∧ t.platform = s.platform ∧ t.tick = s.tick ∧ t.inputs = s.inputs := by
  obtain ⟨u, m, c, hu, rfl⟩ := takeFault_next h
  obtain ⟨w, -, rfl⟩ := State.exceptionEntry_ok hu
  exact ⟨rfl, rfl, rfl, rfl, rfl, rfl, rfl, rfl, rfl⟩

/-- The state a hardware exception entry leaves (rule R353). -/
theorem hardwareException_next {s t : State} {k : Line} (h : hardwareException s k = .next t) :
    ∃ u, (s.withPending (s.pending.clear k)).exceptionEntry (Line.link k) (Line.vector k) s.pc = .ok u ∧
      t = u.withCause ((0x1F : BitVec 8) ++ Line.vector k) := by
  simp only [hardwareException] at h
  split at h <;> rename_i x hx
  · cases h
  · cases h; exact ⟨x, hx, rfl⟩

/-- The state a hardware reset leaves (rules R380, R381). -/
theorem hardwareReset_next {s t : State} {v : ResetValues} (h : hardwareReset s v = .next t) :
    ∃ target, s.readVector 0 = .ok target ∧
      t = { s with
        sr := 0, gen := v.gen, links := v.links, cause := v.cause, level := 0, waiting := false
        pending := Lines.none, ph := target.extractLsb' 16 16, pl := target.extractLsb' 0 16 } := by
  simp only [hardwareReset] at h
  split at h <;> rename_i x hx
  · cases h
  · cases h; exact ⟨x, hx, rfl⟩

/-- The events taken at a boundary are the head of the trace; only the trace and the count of steps change. -/
theorem State.takePins_eq (s : State) :
    s.takePins.2 = (s.withInputs s.takePins.2.inputs).withTick (s.tick + 1) := by
  simp only [State.takePins]
  split <;> rfl

/-- How a step comes to a next state: a reset, a level-five conflict, a hardware exception, an idle step, a fault of
the fetch, or an instruction. -/
theorem step_next {s t : State} (h : step s = .next t) :
    (∃ v, s.takePins.1.reset = some v ∧ hardwareReset s.takePins.2 v = .next t) ∨
    (s.takePins.1.reset = none ∧
      let u := s.takePins.2.latch s.takePins.1.lines
      takeFault u u.pc ⟨.levelFiveConflict, 0, 0⟩ = .next t ∨
      (∃ k, u.candidate = some k ∧ hardwareException u k = .next t) ∨
      t = u ∨
      (∃ f, u.fetch = .error f ∧ takeFault u u.pc f = .next t) ∨
      ∃ w, u.fetch = .ok w ∧ exec (decodeWord w) u = .next t) := by
  simp only [step, State.boundary] at h
  split at h <;> rename_i o ho
  · split at ho
    · rename_i v hv
      cases ho; exact .inl ⟨v, hv, h⟩
    · rename_i hv
      refine .inr ⟨hv, ?_⟩
      split at ho
      · cases ho; exact .inl h
      · split at ho
        · rename_i k hk
          cases ho; exact .inr (.inl ⟨k, hk, h⟩)
        · split at ho
          · cases ho; cases h; exact .inr (.inr (.inl rfl))
          · cases ho
  · split at ho
    · cases ho
    · rename_i hv
      refine .inr ⟨hv, ?_⟩
      split at ho
      · cases ho
      · split at ho
        · cases ho
        · split at ho
          · cases ho
          · cases ho
            simp only [fetchAndRun] at h
            split at h <;> rename_i x hx
            · exact .inr (.inr (.inr (.inl ⟨x, hx, h⟩)))
            · exact .inr (.inr (.inr (.inr ⟨x, hx, h⟩)))

end Sys2Proof.Machine
end

