-- ==== Sys2Proof/Laws/Exec.lean ====
section
/-! SUPPORT. Each instruction as `runInstr` of its body, so that no proof unfolds the dispatch. -/

namespace Sys2Proof.Machine

theorem exec_addi (f : ImmForm FlagSource) (s : State) :
    exec (.addi f) s = runInstr f.cond s (aluImmBody .add true f) := rfl

theorem exec_adci (f : ImmForm FlagSource) (s : State) :
    exec (.adci f) s = runInstr f.cond s (aluImmBody .adc true f) := rfl

theorem exec_subi (f : ImmForm FlagSource) (s : State) :
    exec (.subi f) s = runInstr f.cond s (aluImmBody .sub true f) := rfl

theorem exec_sbci (f : ImmForm FlagSource) (s : State) :
    exec (.sbci f) s = runInstr f.cond s (aluImmBody .sbc true f) := rfl

theorem exec_andi (f : ImmForm FlagSource) (s : State) :
    exec (.andi f) s = runInstr f.cond s (aluImmBody .and true f) := rfl

theorem exec_orri (f : ImmForm FlagSource) (s : State) :
    exec (.orri f) s = runInstr f.cond s (aluImmBody .orr true f) := rfl

theorem exec_xori (f : ImmForm FlagSource) (s : State) :
    exec (.xori f) s = runInstr f.cond s (aluImmBody .xor true f) := rfl

theorem exec_loadi (f : ImmForm FlagSource) (s : State) :
    exec (.loadi f) s = runInstr f.cond s (moveBody f.reg f.af f.imm) := rfl

theorem exec_addTest08 (f : ImmForm FlagSource) (s : State) :
    exec (.addTest08 f) s = runInstr f.cond s (undocumented (aluImmBody .add false f)) := rfl

theorem exec_adcTest09 (f : ImmForm FlagSource) (s : State) :
    exec (.adcTest09 f) s = runInstr f.cond s (undocumented (aluImmBody .adc false f)) := rfl

theorem exec_cmpi (f : ImmForm FlagSource) (s : State) :
    exec (.cmpi f) s = runInstr f.cond s (aluImmBody .sub false f) := rfl

theorem exec_sbcTest0B (f : ImmForm FlagSource) (s : State) :
    exec (.sbcTest0B f) s = runInstr f.cond s (undocumented (aluImmBody .sbc false f)) := rfl

theorem exec_tsai (f : ImmForm FlagSource) (s : State) :
    exec (.tsai f) s = runInstr f.cond s (aluImmBody .and false f) := rfl

theorem exec_orrTest0D (f : ImmForm FlagSource) (s : State) :
    exec (.orrTest0D f) s = runInstr f.cond s (undocumented (aluImmBody .orr false f)) := rfl

theorem exec_tsxi (f : ImmForm FlagSource) (s : State) :
    exec (.tsxi f) s = runInstr f.cond s (aluImmBody .xor false f) := rfl

theorem exec_addiS (f : ShortForm) (s : State) :
    exec (.addiS f) s = runInstr f.cond s (aluShortBody .add true f) := rfl

theorem exec_adciS (f : ShortForm) (s : State) :
    exec (.adciS f) s = runInstr f.cond s (aluShortBody .adc true f) := rfl

theorem exec_subiS (f : ShortForm) (s : State) :
    exec (.subiS f) s = runInstr f.cond s (aluShortBody .sub true f) := rfl

theorem exec_sbciS (f : ShortForm) (s : State) :
    exec (.sbciS f) s = runInstr f.cond s (aluShortBody .sbc true f) := rfl

theorem exec_andiS (f : ShortForm) (s : State) :
    exec (.andiS f) s = runInstr f.cond s (aluShortBody .and true f) := rfl

theorem exec_orriS (f : ShortForm) (s : State) :
    exec (.orriS f) s = runInstr f.cond s (aluShortBody .orr true f) := rfl

theorem exec_xoriS (f : ShortForm) (s : State) :
    exec (.xoriS f) s = runInstr f.cond s (aluShortBody .xor true f) := rfl

theorem exec_loadS (f : ShortForm) (s : State) :
    exec (.loadS f) s = runInstr f.cond s fun t => moveUnshiftedBody f.reg f.af f.shift.kind (t.extend8 f.imm) t := rfl

theorem exec_addTest28 (f : ShortForm) (s : State) :
    exec (.addTest28 f) s = runInstr f.cond s (undocumented (aluShortBody .add false f)) := rfl

theorem exec_adcTest29 (f : ShortForm) (s : State) :
    exec (.adcTest29 f) s = runInstr f.cond s (undocumented (aluShortBody .adc false f)) := rfl

theorem exec_cmpiS (f : ShortForm) (s : State) :
    exec (.cmpiS f) s = runInstr f.cond s (aluShortBody .sub false f) := rfl

theorem exec_sbcTest2B (f : ShortForm) (s : State) :
    exec (.sbcTest2B f) s = runInstr f.cond s (undocumented (aluShortBody .sbc false f)) := rfl

theorem exec_tsaiS (f : ShortForm) (s : State) :
    exec (.tsaiS f) s = runInstr f.cond s (aluShortBody .and false f) := rfl

theorem exec_orrTest2D (f : ShortForm) (s : State) :
    exec (.orrTest2D f) s = runInstr f.cond s (undocumented (aluShortBody .orr false f)) := rfl

theorem exec_tsxiS (f : ShortForm) (s : State) :
    exec (.tsxiS f) s = runInstr f.cond s (aluShortBody .xor false f) := rfl

theorem exec_addr (f : RegForm FlagSource) (s : State) :
    exec (.addr f) s = runInstr f.cond s (aluRegBody .add true f) := rfl

theorem exec_adcr (f : RegForm FlagSource) (s : State) :
    exec (.adcr f) s = runInstr f.cond s (aluRegBody .adc true f) := rfl

theorem exec_subr (f : RegForm FlagSource) (s : State) :
    exec (.subr f) s = runInstr f.cond s (aluRegBody .sub true f) := rfl

theorem exec_sbcr (f : RegForm FlagSource) (s : State) :
    exec (.sbcr f) s = runInstr f.cond s (aluRegBody .sbc true f) := rfl

theorem exec_andr (f : RegForm FlagSource) (s : State) :
    exec (.andr f) s = runInstr f.cond s (aluRegBody .and true f) := rfl

theorem exec_orrr (f : RegForm FlagSource) (s : State) :
    exec (.orrr f) s = runInstr f.cond s (aluRegBody .orr true f) := rfl

theorem exec_xorr (f : RegForm FlagSource) (s : State) :
    exec (.xorr f) s = runInstr f.cond s (aluRegBody .xor true f) := rfl

theorem exec_loadr (f : RegForm FlagSource) (s : State) :
    exec (.loadr f) s = runInstr f.cond s fun t => moveUnshiftedBody f.r1 f.af f.shift.kind (t.read f.r3) t := rfl

theorem exec_addTest38 (f : RegForm FlagSource) (s : State) :
    exec (.addTest38 f) s = runInstr f.cond s (undocumented (aluRegBody .add false f)) := rfl

theorem exec_adcTest39 (f : RegForm FlagSource) (s : State) :
    exec (.adcTest39 f) s = runInstr f.cond s (undocumented (aluRegBody .adc false f)) := rfl

theorem exec_cmpr (f : RegForm FlagSource) (s : State) :
    exec (.cmpr f) s = runInstr f.cond s (aluRegBody .sub false f) := rfl

theorem exec_sbcTest3B (f : RegForm FlagSource) (s : State) :
    exec (.sbcTest3B f) s = runInstr f.cond s (undocumented (aluRegBody .sbc false f)) := rfl

theorem exec_tsar (f : RegForm FlagSource) (s : State) :
    exec (.tsar f) s = runInstr f.cond s (aluRegBody .and false f) := rfl

theorem exec_orrTest3D (f : RegForm FlagSource) (s : State) :
    exec (.orrTest3D f) s = runInstr f.cond s (undocumented (aluRegBody .orr false f)) := rfl

theorem exec_tsxr (f : RegForm FlagSource) (s : State) :
    exec (.tsxr f) s = runInstr f.cond s (aluRegBody .xor false f) := rfl

theorem exec_storInd (f : ImmForm Pair) (s : State) :
    exec (.storInd f) s = runInstr f.cond s (storeIndirect f.reg f.af f.imm noShift) := rfl

theorem exec_storIndR (f : RegForm Pair) (s : State) :
    exec (.storIndR f) s = runInstr f.cond s fun t => storeIndirect f.r1 f.af (t.read f.r2) f.shift t := rfl

theorem exec_storPre (f : ImmForm Pair) (s : State) :
    exec (.storPre f) s = runInstr f.cond s (storePreDecrement f.reg f.af f.imm noShift) := rfl

theorem exec_storPreR (f : RegForm Pair) (s : State) :
    exec (.storPreR f) s = runInstr f.cond s fun t => storePreDecrement f.r1 f.af (t.read f.r2) f.shift t := rfl

theorem exec_loadInd (f : ImmForm Pair) (s : State) :
    exec (.loadInd f) s = runInstr f.cond s (loadIndirect f.reg f.af f.imm noShift) := rfl

theorem exec_loadIndR (f : RegForm Pair) (s : State) :
    exec (.loadIndR f) s = runInstr f.cond s fun t => loadIndirect f.r1 f.af (t.read f.r2) f.shift t := rfl

theorem exec_loadPost (f : ImmForm Pair) (s : State) :
    exec (.loadPost f) s = runInstr f.cond s (loadPostIncrement f.reg f.af f.imm noShift) := rfl

theorem exec_loadPostR (f : RegForm Pair) (s : State) :
    exec (.loadPostR f) s = runInstr f.cond s fun t => loadPostIncrement f.r1 f.af (t.read f.r2) f.shift t := rfl

theorem exec_ldea (f : ImmForm Pair) (s : State) :
    exec (.ldea f) s = runInstr f.cond s (ldeaBody f.reg f.af f.imm) := rfl

theorem exec_ldeaR (f : RegForm Pair) (s : State) :
    exec (.ldeaR f) s = runInstr f.cond s fun t => ldeaBody f.r1 f.af (t.read f.r2) t := rfl

theorem exec_bran (f : ImmForm Pair) (s : State) :
    exec (.bran f) s = runInstr f.cond s (branBody f.af f.imm) := rfl

theorem exec_branR (f : RegForm Pair) (s : State) :
    exec (.branR f) s = runInstr f.cond s fun t => branBody f.af (t.read f.r2) t := rfl

theorem exec_ljsr (f : ImmForm Pair) (s : State) :
    exec (.ljsr f) s = runInstr f.cond s (ljsrBody f.af f.imm) := rfl

theorem exec_ljsrR (f : RegForm Pair) (s : State) :
    exec (.ljsrR f) s = runInstr f.cond s fun t => ljsrBody f.af (t.read f.r2) t := rfl

theorem exec_brsr (f : ImmForm Pair) (s : State) :
    exec (.brsr f) s = runInstr f.cond s (brsrBody f.af f.imm) := rfl

theorem exec_brsrR (f : RegForm Pair) (s : State) :
    exec (.brsrR f) s = runInstr f.cond s fun t => brsrBody f.af (t.read f.r2) t := rfl

theorem exec_copi (f : ImmForm FlagSource) (s : State) :
    exec (.copi f) s = runInstr f.cond s (coprocessorCall f.imm) := rfl

theorem exec_copiS (f : ShortForm) (s : State) :
    exec (.copiS f) s = runInstr f.cond s fun t => coprocessorCall (t.extend8 f.imm) t := rfl

theorem exec_copr (f : RegForm FlagSource) (s : State) :
    exec (.copr f) s = runInstr f.cond s fun t => coprocessorCall (t.read f.r3) t := rfl

theorem exec_excp (f : UnitForm) (s : State) :
    exec (.excp f) s = runInstr f.cond s (coprocessorCall (unitExpansion 0x11 f).imm) := rfl

theorem exec_wait (f : UnitForm) (s : State) :
    exec (.wait f) s = runInstr f.cond s (coprocessorCall (unitExpansion 0x19 f).imm) := rfl

theorem exec_rete (f : UnitForm) (s : State) :
    exec (.rete f) s = runInstr f.cond s (coprocessorCall (unitExpansion 0x1A f).imm) := rfl

theorem exec_rset (f : UnitForm) (s : State) :
    exec (.rset f) s = runInstr f.cond s (coprocessorCall (unitExpansion 0x1B f).imm) := rfl

theorem exec_etfr (f : UnitForm) (s : State) :
    exec (.etfr f) s = runInstr f.cond s (coprocessorCall (unitExpansion 0x1C f).imm) := rfl

theorem exec_ettr (f : UnitForm) (s : State) :
    exec (.ettr f) s = runInstr f.cond s (coprocessorCall (unitExpansion 0x1D f).imm) := rfl

theorem exec_noop (s : State) : exec .noop s = runInstr .al s (aluImmBody .add true noopExpansion) := rfl

theorem exec_rets (c : Cond) (s : State) : exec (.rets c) s = runInstr c s (ldeaBody .ph .l 0) := rfl

theorem exec_ljmp (f : JumpForm) (s : State) :
    exec (.ljmp f) s = runInstr f.cond s (ldeaBody .ph f.pair f.imm) := rfl

theorem exec_ljmpR (f : JumpRegForm) (s : State) :
    exec (.ljmpR f) s = runInstr f.cond s fun t => ldeaBody .ph f.pair (t.read f.r2) t := rfl

theorem exec_shfi (f : ShiftImmForm) (s : State) :
    exec (.shfi f) s = runInstr f.cond s (aluShortBody .add true (shfiExpansion f)) := rfl

theorem exec_shfr (f : ShiftRegForm) (s : State) :
    exec (.shfr f) s = runInstr f.cond s (aluRegBody .add true (shfrExpansion f)) := rfl

theorem exec_shft (f : ShiftForm) (s : State) :
    exec (.shft f) s = runInstr f.cond s (aluShortBody .orr true (shftExpansion f)) := rfl

end Sys2Proof.Machine
end

