-- ==== Sys2Proof/Laws/Effects.lean ====
section
/-! SUPPORT. What the body of an instruction can change, said once for all instructions: `exec_body` and `exec_cases`
bound what any instruction does by `Effect`. -/

namespace Sys2Proof.Machine

/-- `t` differs from `s` only in registers, the wait flag and the cause register; what protected mode protects is as
before if `s` was in it. -/
structure Quiet (s t : State) : Prop where
  platform : t.platform = s.platform
  tick : t.tick = s.tick
  inputs : t.inputs = s.inputs
  pending : t.pending = s.pending
  mem : t.mem = s.mem
  links : t.links = s.links
  level : t.level = s.level
  bit13 : s.sr.getLsbD 13 = false → t.sr.getLsbD 13 = false
  confined : s.isProtected = true → t.isProtected = true ∧ t.segments = s.segments

theorem Quiet.refl (s : State) : Quiet s s := ⟨rfl, rfl, rfl, rfl, rfl, rfl, rfl, id, fun h => ⟨h, rfl⟩⟩

theorem Quiet.trans {s t u : State} (h : Quiet s t) (k : Quiet t u) : Quiet s u where
  platform := k.platform.trans h.platform
  tick := k.tick.trans h.tick
  inputs := k.inputs.trans h.inputs
  pending := k.pending.trans h.pending
  mem := k.mem.trans h.mem
  links := k.links.trans h.links
  level := k.level.trans h.level
  bit13 := fun b => k.bit13 (h.bit13 b)
  confined := fun p =>
    ⟨(k.confined (h.confined p).1).1, (k.confined (h.confined p).1).2.trans (h.confined p).2⟩

/-- Everything the body of an instruction can do to the machine. -/
structure Effect (s t : State) : Prop where
  platform : t.platform = s.platform
  tick : t.tick = s.tick
  inputs : t.inputs = s.inputs
  pending : t.pending = s.pending
  mem : t.mem = s.mem ∨
    ∃ pair low v, t.mem = Memory.setWord s.mem (addressOf (s.read (Pair.high pair)) low) v
  links : linksOrdered s.links = true → linksOrdered t.links = true
  bit13 : s.sr.getLsbD 13 = false → t.sr.getLsbD 13 = false
  confined : s.isProtected = true →
    (t.isProtected = true ∧ t.segments = s.segments) ∨
      (t.isProtected = false ∧ s.level = 0 ∧ t.level = 1 ∧ t.waiting = false)

theorem Quiet.effect {s t : State} (h : Quiet s t) : Effect s t where
  platform := h.platform
  tick := h.tick
  inputs := h.inputs
  pending := h.pending
  mem := .inl h.mem
  links := fun l => by rw [h.links]; exact l
  bit13 := h.bit13
  confined := fun p => .inl (h.confined p)

/-! The status register bits that matter here -/

theorem filterSr_bit13 (s : State) (v : Word) (h : s.sr.getLsbD 13 = false) :
    (s.filterSr v).getLsbD 13 = false := by
  simp only [State.filterSr]
  split
  · simpa using h
  · simp

theorem filterSr_protected (s : State) (v : Word) (h : s.isProtected = true) :
    (s.filterSr v).getLsbD 8 = true := by
  have h8 : s.sr.getLsbD 8 = true := h
  simp [State.filterSr, h, h8]

theorem setFlags_getLsbD (sr : Word) (f : Flags) (i : Nat) (h : 4 ≤ i) :
    (setFlags sr f).getLsbD i = sr.getLsbD i := by
  simp only [setFlags, BitVec.getLsbD_append, BitVec.getLsbD_extractLsb']
  by_cases hi : i < 16
  · have h1 : ¬ i < 4 := by omega
    have h2 : i - 4 < 12 := by omega
    have h3 : 4 + (i - 4) = i := by omega
    simp [h1, h2, h3]
  · have h1 : ¬ i < 4 := by omega
    have h2 : ¬ i - 4 < 12 := by omega
    simp [h1, h2, BitVec.getLsbD_of_ge sr i (by omega)]

/-! Writes -/

/-- A register write that the privilege test allows is quiet. -/
theorem Quiet.write {s : State} {r : Reg} (v : Word) (h : s.forbidsWrite r = false) : Quiet s (s.write r v) := by
  refine ⟨by simp, by simp, by simp, by simp, by simp, by simp, by simp, ?_, ?_⟩
  · intro b
    by_cases hr : r = .sr
    · subst hr; exact filterSr_bit13 s v b
    · rw [State.write_sr_other s r v hr]; exact b
  · intro p
    simp only [State.forbidsWrite, p, Bool.true_and] at h
    cases r <;> first
      | exact ⟨p, rfl⟩
      | exact ⟨filterSr_protected s v p, rfl⟩
      | cases h

theorem Quiet.withSr_setFlags (s : State) (f : Flags) : Quiet s (s.withSr (setFlags s.sr f)) := by
  refine ⟨rfl, rfl, rfl, rfl, rfl, rfl, rfl, fun b => ?_, fun p => ⟨?_, rfl⟩⟩
  · exact (setFlags_getLsbD s.sr f 13 (by omega)).trans b
  · exact (setFlags_getLsbD s.sr f 8 (by omega)).trans p

theorem Quiet.withCause (s : State) (v : Word) : Quiet s (s.withCause v) :=
  ⟨rfl, rfl, rfl, rfl, rfl, rfl, rfl, id, fun h => ⟨h, rfl⟩⟩

theorem Quiet.withWaiting (s : State) (b : Bool) : Quiet s (s.withWaiting b) :=
  ⟨rfl, rfl, rfl, rfl, rfl, rfl, rfl, id, fun h => ⟨h, rfl⟩⟩

theorem forbidsWrite_low (s : State) (pair : Pair) : s.forbidsWrite (Pair.low pair) = false := by
  cases pair <;> simp [State.forbidsWrite, Pair.low, Reg.isHigh]

theorem forbidsWrite_supervisor {s : State} (r : Reg) (h : s.isProtected = false) :
    s.forbidsWrite r = false := by
  simp [State.forbidsWrite, h]

/-- A write to a register other than the status register keeps the mode. -/
theorem State.write_isProtected (s : State) (r : Reg) (v : Word) (h : r ≠ .sr) :
    (s.write r v).isProtected = s.isProtected := by
  simp only [State.isProtected, State.write_sr_other s r v h]

theorem Pair.low_ne_sr (pair : Pair) : Pair.low pair ≠ .sr := by cases pair <;> simp [Pair.low]
theorem Pair.high_ne_sr (pair : Pair) : Pair.high pair ≠ .sr := by cases pair <;> simp [Pair.high]

/-! The bodies -/

theorem updateFlags_quiet {s t : State} {af : FlagSource} {a b : Flags}
    (h : s.updateFlags af a b = .ok t) : Quiet s t := by
  cases af with
  | keep => cases h; exact Quiet.refl s
  | alu => cases h; exact Quiet.withSr_setFlags s _
  | shift => cases h; exact Quiet.withSr_setFlags s _
  | reserved => cases h

theorem aluStep_quiet {fn : AluFn} {dst : Option Reg} {af : FlagSource} {kind : ShiftType} {v : Word}
    {a : ShiftOut} {b : Word} {s t : State} (h : aluStep fn dst af kind v a b s = .ok t) : Quiet s t := by
  obtain ⟨u, hu, h⟩ := bind_eq_ok h
  obtain ⟨_, hp, h⟩ := bind_eq_ok h
  cases h
  cases dst with
  | none => exact updateFlags_quiet hu
  | some r => exact (Quiet.write _ (raiseIf_ok hp)).trans (updateFlags_quiet hu)

theorem aluImmBody_quiet {fn : AluFn} {save : Bool} {f : ImmForm FlagSource} {s t : State}
    (h : aluImmBody fn save f s = .ok t) : Quiet s t := aluStep_quiet h

theorem aluShortBody_quiet {fn : AluFn} {save : Bool} {f : ShortForm} {s t : State}
    (h : aluShortBody fn save f s = .ok t) : Quiet s t := by
  obtain ⟨a, -, h⟩ := bind_eq_ok h; exact aluStep_quiet h

theorem aluRegBody_quiet {fn : AluFn} {save : Bool} {f : RegForm FlagSource} {s t : State}
    (h : aluRegBody fn save f s = .ok t) : Quiet s t := by
  obtain ⟨a, -, h⟩ := bind_eq_ok h; exact aluStep_quiet h

theorem moveBody_quiet {dst : Reg} {af : FlagSource} {v : Word} {s t : State}
    (h : moveBody dst af v s = .ok t) : Quiet s t := by
  obtain ⟨_, _, h⟩ := bind_eq_ok h
  obtain ⟨_, hp, h⟩ := bind_eq_ok h
  cases h; exact Quiet.write _ (raiseIf_ok hp)

theorem moveUnshiftedBody_quiet {dst : Reg} {af : FlagSource} {kind : ShiftType} {v : Word} {s t : State}
    (h : moveUnshiftedBody dst af kind v s = .ok t) : Quiet s t := by
  obtain ⟨_, _, h⟩ := bind_eq_ok h; exact moveBody_quiet h

theorem effect_store {s t : State} {pair : Pair} {low off : Word} {ea : Address} {v : Word}
    (he : s.effective pair low off = .ok ea) (h : s.storeWord ea v = .ok t) :
    Effect s t ∧ t = s.withMem t.mem := by
  obtain ⟨l, -, rfl⟩ := State.effective_ok he
  obtain ⟨-, rfl⟩ := State.storeWord_ok h
  rcases s.busWrite_eq (addressOf (s.read (Pair.high pair)) l) v with hw | hw <;> rw [hw]
  · exact ⟨(Quiet.refl s).effect, rfl⟩
  · exact ⟨⟨rfl, rfl, rfl, rfl, .inr ⟨pair, l, v, rfl⟩, id, id, fun p => .inl ⟨p, rfl⟩⟩, rfl⟩

/-- A quiet change after a body's effect is part of the effect, if it writes no register protected mode
protects. -/
theorem Effect.trans_quiet {s t u : State} (h : Effect s t) (hp : s.isProtected = true → t.isProtected = true)
    (k : Quiet t u) : Effect s u where
  platform := k.platform.trans h.platform
  tick := k.tick.trans h.tick
  inputs := k.inputs.trans h.inputs
  pending := k.pending.trans h.pending
  mem := by rw [k.mem]; exact h.mem
  links := fun l => by rw [k.links]; exact h.links l
  bit13 := fun b => k.bit13 (h.bit13 b)
  confined := fun p => by
    have hc := k.confined (hp p)
    rcases h.confined p with h1 | h1
    · exact .inl ⟨hc.1, hc.2.trans h1.2⟩
    · rw [hp p] at h1; cases h1.1

theorem storeIndirect_effect {data : Reg} {pair : Pair} {off : Word} {sh : Shift} {s t : State}
    (h : storeIndirect data pair off sh s = .ok t) : Effect s t := by
  obtain ⟨_, -, h⟩ := bind_eq_ok h
  obtain ⟨ea, he, h⟩ := bind_eq_ok h
  exact (effect_store he h).1

theorem storePreDecrement_effect {data : Reg} {pair : Pair} {off : Word} {sh : Shift} {s t : State}
    (h : storePreDecrement data pair off sh s = .ok t) : Effect s t := by
  obtain ⟨_, -, h⟩ := bind_eq_ok h
  obtain ⟨low, -, h⟩ := bind_eq_ok h
  obtain ⟨ea, he, h⟩ := bind_eq_ok h
  obtain ⟨u, hu, h⟩ := bind_eq_ok h
  cases h
  obtain ⟨e, hw⟩ := effect_store he hu
  refine e.trans_quiet (fun p => ?_) (Quiet.write _ (forbidsWrite_low u pair))
  rw [hw]; exact p

theorem loadIndirect_quiet {dst : Reg} {pair : Pair} {off : Word} {sh : Shift} {s t : State}
    (h : loadIndirect dst pair off sh s = .ok t) : Quiet s t := by
  obtain ⟨_, _, h⟩ := bind_eq_ok h
  obtain ⟨_, hp, h⟩ := bind_eq_ok h
  obtain ⟨ea, -, h⟩ := bind_eq_ok h
  obtain ⟨v, -, h⟩ := bind_eq_ok h
  cases h; exact Quiet.write _ (raiseIf_ok hp)

theorem loadPostIncrement_quiet {dst : Reg} {pair : Pair} {off : Word} {sh : Shift} {s t : State}
    (h : loadPostIncrement dst pair off sh s = .ok t) : Quiet s t := by
  obtain ⟨_, _, h⟩ := bind_eq_ok h
  obtain ⟨_, hp, h⟩ := bind_eq_ok h
  obtain ⟨ea, -, h⟩ := bind_eq_ok h
  obtain ⟨low, -, h⟩ := bind_eq_ok h
  obtain ⟨v, -, h⟩ := bind_eq_ok h
  cases h
  exact (Quiet.write _ (raiseIf_ok hp)).trans (Quiet.write _ (forbidsWrite_low _ pair))

theorem ldeaBody_quiet {dest : Reg} {src : Pair} {off : Word} {s t : State}
    (h : ldeaBody dest src off s = .ok t) : Quiet s t := by
  obtain ⟨d, -, h⟩ := bind_eq_ok h
  obtain ⟨_, hp, h⟩ := bind_eq_ok h
  obtain ⟨low, -, h⟩ := bind_eq_ok h
  cases h
  exact (Quiet.write _ (forbidsWrite_supervisor _ (raiseIf_ok hp))).trans (Quiet.write _ (forbidsWrite_low _ d))

theorem branBody_quiet {base : Pair} {off : Word} {s t : State}
    (h : branBody base off s = .ok t) : Quiet s t := by
  obtain ⟨low, -, h⟩ := bind_eq_ok h
  cases h; exact Quiet.write _ (forbidsWrite_low s .p)

theorem ljsrBody_quiet {src : Pair} {off : Word} {s t : State}
    (h : ljsrBody src off s = .ok t) : Quiet s t := by
  obtain ⟨_, hp, h⟩ := bind_eq_ok h
  obtain ⟨low, -, h⟩ := bind_eq_ok h
  cases h
  have hp := raiseIf_ok hp
  exact (((Quiet.write s.ph (forbidsWrite_supervisor .lh hp)).trans
    (Quiet.write s.pl (forbidsWrite_low _ .l))).trans
    (Quiet.write (s.read (Pair.high src)) (forbidsWrite_supervisor .ph hp))).trans
    (Quiet.write low (forbidsWrite_low _ .p))

theorem brsrBody_quiet {base : Pair} {off : Word} {s t : State}
    (h : brsrBody base off s = .ok t) : Quiet s t := by
  obtain ⟨low, -, h⟩ := bind_eq_ok h
  cases h
  exact (Quiet.write _ (forbidsWrite_low s .l)).trans (Quiet.write _ (forbidsWrite_low _ .p))

/-! The exception unit -/

theorem and_7EFF (x : Word) : (x &&& 0x7EFF).getLsbD 8 = false ∧ (x &&& 0x7EFF).getLsbD 15 = false := by
  constructor <;> simp

theorem and_7EFF_bit13 (x : Word) (h : x.getLsbD 13 = false) : (x &&& 0x7EFF).getLsbD 13 = false := by
  simpa using h

/-- Writing a link register with an unchanged level keeps the order. -/
theorem linksOrdered_set_same {links : Vector LinkReg 8} (n : Fin 8) (r : LinkReg)
    (hr : r.level = (links[n]).level) (h : linksOrdered links = true) :
    linksOrdered (links.set n r) = true := by
  simp only [linksOrdered, Bool.and_eq_true, decide_eq_true_eq] at h ⊢
  fin_cases n <;> simp_all

/-- Saving a level that is at most the number of the link register keeps the order; LR6 is not bound by it. -/
theorem linksOrdered_set_entry {links : Vector LinkReg 8} (n : Fin 7) (r : LinkReg)
    (hr : n = 6 ∨ r.level.val ≤ n.val) (h : linksOrdered links = true) :
    linksOrdered (links.set n.castSucc r) = true := by
  simp only [linksOrdered, Bool.and_eq_true, decide_eq_true_eq] at h ⊢
  fin_cases n <;> simp_all [Fin.le_def]

/-- LR7 is not bound by the order. -/
theorem linksOrdered_set_seven {links : Vector LinkReg 8} (r : LinkReg) (h : linksOrdered links = true) :
    linksOrdered (links.set 7 r) = true := by
  rw [← h]
  simp [linksOrdered]

theorem orHalt_ok {α : Type} {r : Except Fault α} {x : α} (h : orHalt r = .ok x) : r = .ok x := by
  cases r with
  | ok y => cases h; rfl
  | error e => cases h

theorem excpOperation_effect {par : BitVec 8} {s t : State} (h : excpOperation par s = .ok t) : Effect s t := by
  obtain ⟨_, _, h⟩ := bind_eq_ok h
  obtain ⟨_, _, h⟩ := bind_eq_ok h
  obtain ⟨_, hl, h⟩ := bind_eq_ok h
  obtain ⟨w, -, rfl⟩ := State.exceptionEntry_ok (orHalt_ok h)
  have hl : s.level = 0 := by simpa using refuseIf_ok hl
  refine ⟨rfl, rfl, rfl, rfl, .inl rfl, fun l => ?_, fun b => and_7EFF_bit13 _ b,
    fun _ => .inr ⟨(and_7EFF _).1, hl, rfl, rfl⟩⟩
  exact linksOrdered_set_entry 0 _ (.inr (by simp [hl])) l

theorem coprocessorCall_effect {v : Word} {s t : State} (h : coprocessorCall v s = .ok t) : Effect s t := by
  obtain ⟨_, hp, h⟩ := bind_eq_ok h
  obtain ⟨_, _, h⟩ := bind_eq_ok h
  obtain ⟨_, _, h⟩ := bind_eq_ok h
  obtain ⟨_, _, h⟩ := bind_eq_ok h
  have hp := raiseIf_ok hp
  have key : ∀ u, Effect (s.withCause v) u → Effect s u := fun u e =>
    ⟨e.platform, e.tick, e.inputs, e.pending, e.mem, e.links, e.bit13, e.confined⟩
  refine key t ?_
  generalize hs : s.withCause v = c at h ⊢
  have hc : c.isProtected = s.isProtected := by rw [← hs]; rfl
  have sup : ∀ n : Nat, 8 ≤ n → (v.extractLsb' 8 4).toNat = n → c.isProtected = false := by
    intro n hn he
    rw [hc]
    have : (8 : BitVec 4) ≤ v.extractLsb' 8 4 := by
      rw [BitVec.le_def]; simpa [he] using hn
    rw [decide_eq_true this, Bool.and_true] at hp
    exact hp
  have super : ∀ {u : State}, c.isProtected = false → u.platform = c.platform → u.tick = c.tick → u.inputs = c.inputs →
      u.pending = c.pending → u.mem = c.mem → (linksOrdered c.links = true → linksOrdered u.links = true) →
      (c.sr.getLsbD 13 = false → u.sr.getLsbD 13 = false) → Effect c u :=
    fun p h1 h2 h3 h4 h5 h6 h7 => ⟨h1, h2, h3, h4, .inl h5, h6, h7, fun q => by rw [p] at q; cases q⟩
  simp only [exceptionUnit] at h
  split at h <;> rename_i hn
  · cases h
  · exact excpOperation_effect h
  · cases h; exact (Quiet.withWaiting c true).effect
  · simp only [reteOperation] at h
    split at h
    · cases h
    · cases h
      exact super (sup _ (by omega) hn) rfl rfl rfl rfl rfl id (fun _ => by simp [State.returnFrom, State.withPc])
  · obtain ⟨w, -, h⟩ := bind_eq_ok h
    cases h
    exact super (sup _ (by omega) hn) rfl rfl rfl rfl rfl id (fun _ => by simp)
  · obtain ⟨_, _, h⟩ := bind_eq_ok h
    cases h
    have p := sup _ (by omega) hn
    refine super p ?_ ?_ ?_ ?_ ?_ ?_ ?_ <;> (split <;> split <;> simp [State.write])
  · obtain ⟨_, _, h⟩ := bind_eq_ok h
    cases h
    refine super (sup _ (by omega) hn) rfl rfl rfl rfl rfl (fun l => ?_) id
    refine linksOrdered_set_same _ _ ?_ l
    split <;> split <;> rfl
  · cases h
  · cases h
  · cases h

/-! Every instruction -/

theorem undocumented_ok {body : State → Except Stop State} {s t : State} (h : undocumented body s = .ok t) :
    s.platform.undocumented ≠ .refuse ∧ body s = .ok t := by
  obtain ⟨_, hm, h⟩ := bind_eq_ok h
  exact ⟨by simpa using refuseIf_ok hm, h⟩

/-- Every instruction is `runInstr` of a body whose effect is bounded. -/
theorem exec_body (i : Instr) (s : State) :
    ∃ body, exec i s = runInstr i.cond s body ∧ ∀ u v, body u = .ok v → Effect u v := by
  cases i with
  | addi _ => exact ⟨_, exec_addi _ s, fun _ _ hb => (aluImmBody_quiet hb).effect⟩
  | adci _ => exact ⟨_, exec_adci _ s, fun _ _ hb => (aluImmBody_quiet hb).effect⟩
  | subi _ => exact ⟨_, exec_subi _ s, fun _ _ hb => (aluImmBody_quiet hb).effect⟩
  | sbci _ => exact ⟨_, exec_sbci _ s, fun _ _ hb => (aluImmBody_quiet hb).effect⟩
  | andi _ => exact ⟨_, exec_andi _ s, fun _ _ hb => (aluImmBody_quiet hb).effect⟩
  | orri _ => exact ⟨_, exec_orri _ s, fun _ _ hb => (aluImmBody_quiet hb).effect⟩
  | xori _ => exact ⟨_, exec_xori _ s, fun _ _ hb => (aluImmBody_quiet hb).effect⟩
  | addTest08 _ => exact ⟨_, exec_addTest08 _ s, fun _ _ hb => (aluImmBody_quiet (undocumented_ok hb).2).effect⟩
  | adcTest09 _ => exact ⟨_, exec_adcTest09 _ s, fun _ _ hb => (aluImmBody_quiet (undocumented_ok hb).2).effect⟩
  | cmpi _ => exact ⟨_, exec_cmpi _ s, fun _ _ hb => (aluImmBody_quiet hb).effect⟩
  | sbcTest0B _ => exact ⟨_, exec_sbcTest0B _ s, fun _ _ hb => (aluImmBody_quiet (undocumented_ok hb).2).effect⟩
  | tsai _ => exact ⟨_, exec_tsai _ s, fun _ _ hb => (aluImmBody_quiet hb).effect⟩
  | orrTest0D _ => exact ⟨_, exec_orrTest0D _ s, fun _ _ hb => (aluImmBody_quiet (undocumented_ok hb).2).effect⟩
  | tsxi _ => exact ⟨_, exec_tsxi _ s, fun _ _ hb => (aluImmBody_quiet hb).effect⟩
  | noop => exact ⟨_, exec_noop s, fun _ _ hb => (aluImmBody_quiet hb).effect⟩
  | addiS _ => exact ⟨_, exec_addiS _ s, fun _ _ hb => (aluShortBody_quiet hb).effect⟩
  | adciS _ => exact ⟨_, exec_adciS _ s, fun _ _ hb => (aluShortBody_quiet hb).effect⟩
  | subiS _ => exact ⟨_, exec_subiS _ s, fun _ _ hb => (aluShortBody_quiet hb).effect⟩
  | sbciS _ => exact ⟨_, exec_sbciS _ s, fun _ _ hb => (aluShortBody_quiet hb).effect⟩
  | andiS _ => exact ⟨_, exec_andiS _ s, fun _ _ hb => (aluShortBody_quiet hb).effect⟩
  | orriS _ => exact ⟨_, exec_orriS _ s, fun _ _ hb => (aluShortBody_quiet hb).effect⟩
  | xoriS _ => exact ⟨_, exec_xoriS _ s, fun _ _ hb => (aluShortBody_quiet hb).effect⟩
  | addTest28 _ => exact ⟨_, exec_addTest28 _ s, fun _ _ hb => (aluShortBody_quiet (undocumented_ok hb).2).effect⟩
  | adcTest29 _ => exact ⟨_, exec_adcTest29 _ s, fun _ _ hb => (aluShortBody_quiet (undocumented_ok hb).2).effect⟩
  | cmpiS _ => exact ⟨_, exec_cmpiS _ s, fun _ _ hb => (aluShortBody_quiet hb).effect⟩
  | sbcTest2B _ => exact ⟨_, exec_sbcTest2B _ s, fun _ _ hb => (aluShortBody_quiet (undocumented_ok hb).2).effect⟩
  | tsaiS _ => exact ⟨_, exec_tsaiS _ s, fun _ _ hb => (aluShortBody_quiet hb).effect⟩
  | orrTest2D _ => exact ⟨_, exec_orrTest2D _ s, fun _ _ hb => (aluShortBody_quiet (undocumented_ok hb).2).effect⟩
  | tsxiS _ => exact ⟨_, exec_tsxiS _ s, fun _ _ hb => (aluShortBody_quiet hb).effect⟩
  | shfi _ => exact ⟨_, exec_shfi _ s, fun _ _ hb => (aluShortBody_quiet hb).effect⟩
  | shft _ => exact ⟨_, exec_shft _ s, fun _ _ hb => (aluShortBody_quiet hb).effect⟩
  | addr _ => exact ⟨_, exec_addr _ s, fun _ _ hb => (aluRegBody_quiet hb).effect⟩
  | adcr _ => exact ⟨_, exec_adcr _ s, fun _ _ hb => (aluRegBody_quiet hb).effect⟩
  | subr _ => exact ⟨_, exec_subr _ s, fun _ _ hb => (aluRegBody_quiet hb).effect⟩
  | sbcr _ => exact ⟨_, exec_sbcr _ s, fun _ _ hb => (aluRegBody_quiet hb).effect⟩
  | andr _ => exact ⟨_, exec_andr _ s, fun _ _ hb => (aluRegBody_quiet hb).effect⟩
  | orrr _ => exact ⟨_, exec_orrr _ s, fun _ _ hb => (aluRegBody_quiet hb).effect⟩
  | xorr _ => exact ⟨_, exec_xorr _ s, fun _ _ hb => (aluRegBody_quiet hb).effect⟩
  | addTest38 _ => exact ⟨_, exec_addTest38 _ s, fun _ _ hb => (aluRegBody_quiet (undocumented_ok hb).2).effect⟩
  | adcTest39 _ => exact ⟨_, exec_adcTest39 _ s, fun _ _ hb => (aluRegBody_quiet (undocumented_ok hb).2).effect⟩
  | cmpr _ => exact ⟨_, exec_cmpr _ s, fun _ _ hb => (aluRegBody_quiet hb).effect⟩
  | sbcTest3B _ => exact ⟨_, exec_sbcTest3B _ s, fun _ _ hb => (aluRegBody_quiet (undocumented_ok hb).2).effect⟩
  | tsar _ => exact ⟨_, exec_tsar _ s, fun _ _ hb => (aluRegBody_quiet hb).effect⟩
  | orrTest3D _ => exact ⟨_, exec_orrTest3D _ s, fun _ _ hb => (aluRegBody_quiet (undocumented_ok hb).2).effect⟩
  | tsxr _ => exact ⟨_, exec_tsxr _ s, fun _ _ hb => (aluRegBody_quiet hb).effect⟩
  | shfr _ => exact ⟨_, exec_shfr _ s, fun _ _ hb => (aluRegBody_quiet hb).effect⟩
  | loadi _ => exact ⟨_, exec_loadi _ s, fun _ _ hb => (moveBody_quiet hb).effect⟩
  | loadS _ => exact ⟨_, exec_loadS _ s, fun _ _ hb => (moveUnshiftedBody_quiet hb).effect⟩
  | loadr _ => exact ⟨_, exec_loadr _ s, fun _ _ hb => (moveUnshiftedBody_quiet hb).effect⟩
  | storInd _ => exact ⟨_, exec_storInd _ s, fun _ _ hb => storeIndirect_effect hb⟩
  | storIndR _ => exact ⟨_, exec_storIndR _ s, fun _ _ hb => storeIndirect_effect hb⟩
  | storPre _ => exact ⟨_, exec_storPre _ s, fun _ _ hb => storePreDecrement_effect hb⟩
  | storPreR _ => exact ⟨_, exec_storPreR _ s, fun _ _ hb => storePreDecrement_effect hb⟩
  | loadInd _ => exact ⟨_, exec_loadInd _ s, fun _ _ hb => (loadIndirect_quiet hb).effect⟩
  | loadIndR _ => exact ⟨_, exec_loadIndR _ s, fun _ _ hb => (loadIndirect_quiet hb).effect⟩
  | loadPost _ => exact ⟨_, exec_loadPost _ s, fun _ _ hb => (loadPostIncrement_quiet hb).effect⟩
  | loadPostR _ => exact ⟨_, exec_loadPostR _ s, fun _ _ hb => (loadPostIncrement_quiet hb).effect⟩
  | ldea _ => exact ⟨_, exec_ldea _ s, fun _ _ hb => (ldeaBody_quiet hb).effect⟩
  | ldeaR _ => exact ⟨_, exec_ldeaR _ s, fun _ _ hb => (ldeaBody_quiet hb).effect⟩
  | ljmp _ => exact ⟨_, exec_ljmp _ s, fun _ _ hb => (ldeaBody_quiet hb).effect⟩
  | ljmpR _ => exact ⟨_, exec_ljmpR _ s, fun _ _ hb => (ldeaBody_quiet hb).effect⟩
  | rets _ => exact ⟨_, exec_rets _ s, fun _ _ hb => (ldeaBody_quiet hb).effect⟩
  | bran _ => exact ⟨_, exec_bran _ s, fun _ _ hb => (branBody_quiet hb).effect⟩
  | branR _ => exact ⟨_, exec_branR _ s, fun _ _ hb => (branBody_quiet hb).effect⟩
  | ljsr _ => exact ⟨_, exec_ljsr _ s, fun _ _ hb => (ljsrBody_quiet hb).effect⟩
  | ljsrR _ => exact ⟨_, exec_ljsrR _ s, fun _ _ hb => (ljsrBody_quiet hb).effect⟩
  | brsr _ => exact ⟨_, exec_brsr _ s, fun _ _ hb => (brsrBody_quiet hb).effect⟩
  | brsrR _ => exact ⟨_, exec_brsrR _ s, fun _ _ hb => (brsrBody_quiet hb).effect⟩
  | copi _ => exact ⟨_, exec_copi _ s, fun _ _ hb => coprocessorCall_effect hb⟩
  | copiS _ => exact ⟨_, exec_copiS _ s, fun _ _ hb => coprocessorCall_effect hb⟩
  | copr _ => exact ⟨_, exec_copr _ s, fun _ _ hb => coprocessorCall_effect hb⟩
  | excp _ => exact ⟨_, exec_excp _ s, fun _ _ hb => coprocessorCall_effect hb⟩
  | wait _ => exact ⟨_, exec_wait _ s, fun _ _ hb => coprocessorCall_effect hb⟩
  | rete _ => exact ⟨_, exec_rete _ s, fun _ _ hb => coprocessorCall_effect hb⟩
  | rset _ => exact ⟨_, exec_rset _ s, fun _ _ hb => coprocessorCall_effect hb⟩
  | etfr _ => exact ⟨_, exec_etfr _ s, fun _ _ hb => coprocessorCall_effect hb⟩
  | ettr _ => exact ⟨_, exec_ettr _ s, fun _ _ hb => coprocessorCall_effect hb⟩

/-- How an instruction comes to a next state: its condition failed or its body completed with a bounded effect, and
then perhaps the trace fault was taken; or its body raised a fault. -/
theorem exec_cases {i : Instr} {s t : State} (h : exec i s = .next t) :
    (∃ u, (u = s.advance ∨ Effect s.advance u) ∧
      ((s.tracing = false ∧ t = u) ∨ (s.tracing = true ∧ takeFault u u.pc ⟨.instructionTrace, 5, 0⟩ = .next t))) ∨
    ∃ f, takeFault s s.pc f = .next t := by
  obtain ⟨body, hi, hb⟩ := exec_body i s
  rw [hi] at h
  rcases runInstr_next h with ⟨u, hu, ht⟩ | ⟨f, -, ht⟩
  · exact .inl ⟨u, hu.imp id (hb _ _), ht⟩
  · exact .inr ⟨f, ht⟩

end Sys2Proof.Machine
end

