-- ==== Sys2Proof/Laws/PerInstr.lean ====
section
/-! SUPPORT. A property of every instruction as syntax, one lemma per constructor: bits 3 to 0 of its word are its
condition (rule R99). -/

namespace Sys2Proof.Laws

/-- Bits 3 to 0 of an instruction's word hold the code of its condition. -/
def CondField.Statement (i : Instr) : Prop := (encode i).extractLsb' 0 4 = i.cond.code

theorem condField_append {n : Nat} (x : BitVec n) (c : BitVec 4) : (x ++ c).extractLsb' 0 4 = c :=
  BitVec.extractLsb'_append_eq_right

theorem condField_imm {α : Type} (g : α → BitVec 2) (op : BitVec 6) (f : ImmForm α) :
    (immWord g op f).extractLsb' 0 4 = f.cond.code := condField_append _ _

theorem condField_short (op : BitVec 6) (f : ShortForm) :
    (shortWord op f).extractLsb' 0 4 = f.cond.code := condField_append _ _

theorem condField_reg {α : Type} (g : α → BitVec 2) (op : BitVec 6) (f : RegForm α) :
    (regWord g op f).extractLsb' 0 4 = f.cond.code := condField_append _ _

theorem CondField.addi (f : ImmForm FlagSource) : CondField.Statement (.addi f) :=
  condField_imm _ _ _
theorem CondField.adci (f : ImmForm FlagSource) : CondField.Statement (.adci f) :=
  condField_imm _ _ _
theorem CondField.subi (f : ImmForm FlagSource) : CondField.Statement (.subi f) :=
  condField_imm _ _ _
theorem CondField.sbci (f : ImmForm FlagSource) : CondField.Statement (.sbci f) :=
  condField_imm _ _ _
theorem CondField.andi (f : ImmForm FlagSource) : CondField.Statement (.andi f) :=
  condField_imm _ _ _
theorem CondField.orri (f : ImmForm FlagSource) : CondField.Statement (.orri f) :=
  condField_imm _ _ _
theorem CondField.xori (f : ImmForm FlagSource) : CondField.Statement (.xori f) :=
  condField_imm _ _ _
theorem CondField.loadi (f : ImmForm FlagSource) : CondField.Statement (.loadi f) :=
  condField_imm _ _ _
theorem CondField.addTest08 (f : ImmForm FlagSource) : CondField.Statement (.addTest08 f) :=
  condField_imm _ _ _
theorem CondField.adcTest09 (f : ImmForm FlagSource) : CondField.Statement (.adcTest09 f) :=
  condField_imm _ _ _
theorem CondField.cmpi (f : ImmForm FlagSource) : CondField.Statement (.cmpi f) :=
  condField_imm _ _ _
theorem CondField.sbcTest0B (f : ImmForm FlagSource) : CondField.Statement (.sbcTest0B f) :=
  condField_imm _ _ _
theorem CondField.tsai (f : ImmForm FlagSource) : CondField.Statement (.tsai f) :=
  condField_imm _ _ _
theorem CondField.orrTest0D (f : ImmForm FlagSource) : CondField.Statement (.orrTest0D f) :=
  condField_imm _ _ _
theorem CondField.tsxi (f : ImmForm FlagSource) : CondField.Statement (.tsxi f) :=
  condField_imm _ _ _
theorem CondField.copi (f : ImmForm FlagSource) : CondField.Statement (.copi f) :=
  condField_imm _ _ _
theorem CondField.storInd (f : ImmForm Pair) : CondField.Statement (.storInd f) :=
  condField_imm _ _ _
theorem CondField.storIndR (f : RegForm Pair) : CondField.Statement (.storIndR f) :=
  condField_reg _ _ _
theorem CondField.storPre (f : ImmForm Pair) : CondField.Statement (.storPre f) :=
  condField_imm _ _ _
theorem CondField.storPreR (f : RegForm Pair) : CondField.Statement (.storPreR f) :=
  condField_reg _ _ _
theorem CondField.loadInd (f : ImmForm Pair) : CondField.Statement (.loadInd f) :=
  condField_imm _ _ _
theorem CondField.loadIndR (f : RegForm Pair) : CondField.Statement (.loadIndR f) :=
  condField_reg _ _ _
theorem CondField.loadPost (f : ImmForm Pair) : CondField.Statement (.loadPost f) :=
  condField_imm _ _ _
theorem CondField.loadPostR (f : RegForm Pair) : CondField.Statement (.loadPostR f) :=
  condField_reg _ _ _
theorem CondField.ldea (f : ImmForm Pair) : CondField.Statement (.ldea f) :=
  condField_imm _ _ _
theorem CondField.ldeaR (f : RegForm Pair) : CondField.Statement (.ldeaR f) :=
  condField_reg _ _ _
theorem CondField.bran (f : ImmForm Pair) : CondField.Statement (.bran f) :=
  condField_imm _ _ _
theorem CondField.branR (f : RegForm Pair) : CondField.Statement (.branR f) :=
  condField_reg _ _ _
theorem CondField.ljsr (f : ImmForm Pair) : CondField.Statement (.ljsr f) :=
  condField_imm _ _ _
theorem CondField.ljsrR (f : RegForm Pair) : CondField.Statement (.ljsrR f) :=
  condField_reg _ _ _
theorem CondField.brsr (f : ImmForm Pair) : CondField.Statement (.brsr f) :=
  condField_imm _ _ _
theorem CondField.brsrR (f : RegForm Pair) : CondField.Statement (.brsrR f) :=
  condField_reg _ _ _
theorem CondField.addiS (f : ShortForm) : CondField.Statement (.addiS f) :=
  condField_short _ _
theorem CondField.adciS (f : ShortForm) : CondField.Statement (.adciS f) :=
  condField_short _ _
theorem CondField.subiS (f : ShortForm) : CondField.Statement (.subiS f) :=
  condField_short _ _
theorem CondField.sbciS (f : ShortForm) : CondField.Statement (.sbciS f) :=
  condField_short _ _
theorem CondField.andiS (f : ShortForm) : CondField.Statement (.andiS f) :=
  condField_short _ _
theorem CondField.orriS (f : ShortForm) : CondField.Statement (.orriS f) :=
  condField_short _ _
theorem CondField.xoriS (f : ShortForm) : CondField.Statement (.xoriS f) :=
  condField_short _ _
theorem CondField.loadS (f : ShortForm) : CondField.Statement (.loadS f) :=
  condField_short _ _
theorem CondField.addTest28 (f : ShortForm) : CondField.Statement (.addTest28 f) :=
  condField_short _ _
theorem CondField.adcTest29 (f : ShortForm) : CondField.Statement (.adcTest29 f) :=
  condField_short _ _
theorem CondField.cmpiS (f : ShortForm) : CondField.Statement (.cmpiS f) :=
  condField_short _ _
theorem CondField.sbcTest2B (f : ShortForm) : CondField.Statement (.sbcTest2B f) :=
  condField_short _ _
theorem CondField.tsaiS (f : ShortForm) : CondField.Statement (.tsaiS f) :=
  condField_short _ _
theorem CondField.orrTest2D (f : ShortForm) : CondField.Statement (.orrTest2D f) :=
  condField_short _ _
theorem CondField.tsxiS (f : ShortForm) : CondField.Statement (.tsxiS f) :=
  condField_short _ _
theorem CondField.copiS (f : ShortForm) : CondField.Statement (.copiS f) :=
  condField_short _ _
theorem CondField.addr (f : RegForm FlagSource) : CondField.Statement (.addr f) :=
  condField_reg _ _ _
theorem CondField.adcr (f : RegForm FlagSource) : CondField.Statement (.adcr f) :=
  condField_reg _ _ _
theorem CondField.subr (f : RegForm FlagSource) : CondField.Statement (.subr f) :=
  condField_reg _ _ _
theorem CondField.sbcr (f : RegForm FlagSource) : CondField.Statement (.sbcr f) :=
  condField_reg _ _ _
theorem CondField.andr (f : RegForm FlagSource) : CondField.Statement (.andr f) :=
  condField_reg _ _ _
theorem CondField.orrr (f : RegForm FlagSource) : CondField.Statement (.orrr f) :=
  condField_reg _ _ _
theorem CondField.xorr (f : RegForm FlagSource) : CondField.Statement (.xorr f) :=
  condField_reg _ _ _
theorem CondField.loadr (f : RegForm FlagSource) : CondField.Statement (.loadr f) :=
  condField_reg _ _ _
theorem CondField.addTest38 (f : RegForm FlagSource) : CondField.Statement (.addTest38 f) :=
  condField_reg _ _ _
theorem CondField.adcTest39 (f : RegForm FlagSource) : CondField.Statement (.adcTest39 f) :=
  condField_reg _ _ _
theorem CondField.cmpr (f : RegForm FlagSource) : CondField.Statement (.cmpr f) :=
  condField_reg _ _ _
theorem CondField.sbcTest3B (f : RegForm FlagSource) : CondField.Statement (.sbcTest3B f) :=
  condField_reg _ _ _
theorem CondField.tsar (f : RegForm FlagSource) : CondField.Statement (.tsar f) :=
  condField_reg _ _ _
theorem CondField.orrTest3D (f : RegForm FlagSource) : CondField.Statement (.orrTest3D f) :=
  condField_reg _ _ _
theorem CondField.tsxr (f : RegForm FlagSource) : CondField.Statement (.tsxr f) :=
  condField_reg _ _ _
theorem CondField.copr (f : RegForm FlagSource) : CondField.Statement (.copr f) :=
  condField_reg _ _ _
theorem CondField.excp (f : UnitForm) : CondField.Statement (.excp f) :=
  condField_imm _ _ _
theorem CondField.wait (f : UnitForm) : CondField.Statement (.wait f) :=
  condField_imm _ _ _
theorem CondField.rete (f : UnitForm) : CondField.Statement (.rete f) :=
  condField_imm _ _ _
theorem CondField.rset (f : UnitForm) : CondField.Statement (.rset f) :=
  condField_imm _ _ _
theorem CondField.etfr (f : UnitForm) : CondField.Statement (.etfr f) :=
  condField_imm _ _ _
theorem CondField.ettr (f : UnitForm) : CondField.Statement (.ettr f) :=
  condField_imm _ _ _
theorem CondField.noop : CondField.Statement .noop := condField_imm _ _ _
theorem CondField.rets (c : Cond) : CondField.Statement (.rets c) :=
  condField_imm _ _ _
theorem CondField.ljmp (f : JumpForm) : CondField.Statement (.ljmp f) :=
  condField_imm _ _ _
theorem CondField.ljmpR (f : JumpRegForm) : CondField.Statement (.ljmpR f) :=
  condField_reg _ _ _
theorem CondField.shfi (f : ShiftImmForm) : CondField.Statement (.shfi f) :=
  condField_short _ _
theorem CondField.shfr (f : ShiftRegForm) : CondField.Statement (.shfr f) :=
  condField_reg _ _ _
theorem CondField.shft (f : ShiftForm) : CondField.Statement (.shft f) :=
  condField_short _ _

end Sys2Proof.Laws
end

