-- ==== Sys2Proof/Tests/Slice0.lean ====
section
/-! SUPPORT. The model's own tests: the checks of well-formedness, words the spec writes out and what they decode to,
single steps whose outcome the spec gives, and for every statement with hypotheses a state and operands that
meet them all. -/

namespace Sys2Proof.Tests

open Sys2Proof.Machine

/-! Helpers -/

/-- The vector table of `spec/96_derived_vectors.md` section 0, for the vectors used here: vector `v` holds
0x1000 + 0x10 * v. -/
def vectors : List Host.Cell :=
  [(2, 0x10), (6, 0x10), (7, 0x10), (10, 0x10), (11, 0x20), (14, 0x10), (15, 0x30), (18, 0x10), (19, 0x40),
   (22, 0x10), (23, 0x50), (26, 0x10), (27, 0x60), (66, 0x11), (130, 0x12), (194, 0x13), (258, 0x14),
   (322, 0x15), (386, 0x16), (514, 0x18)]

/-- The start state of that section: supervisor mode, level 0, the instruction at 0x000400. -/
def start : State := { State.reset with pl := 0x0400, mem := vectors }

/-- An outcome is a next state with a property. -/
def gives (o : Host.Outcome State Fault Refusal) (p : State → Bool) : Bool :=
  match o with
  | .next t => p t
  | .fault _ | .refused _ => false

/-- The next state of an outcome, for a witness. -/
def nextOf (o : Host.Outcome State Fault Refusal) : State :=
  match o with
  | .next t => t
  | .fault _ | .refused _ => State.reset

theorem next_nextOf {o : Host.Outcome State Fault Refusal} (h : gives o (fun _ => true) = true) :
    o = .next (nextOf o) := by
  cases o with
  | next t => rfl
  | fault r => cases h
  | refused r => cases h

/-- One step from `s` with instruction `w` at the program counter. -/
def after (s : State) (w : Nat) (p : State → Bool) : Bool := gives (step (s.withFetchWord 32 w)) p

/-- An ALU instruction from `start` with these values of `sr`, `r1`, `r2` and `r3` leaves these values of `sr` and
`r1`, and nothing else but the program counter changes among the registers. -/
def aluGives (sr r1 r2 r3 : Word) (w : Nat) (sr' r1' : Word) : Bool :=
  let g := { GenRegs.zero with r1 := r1, r2 := r2, r3 := r3 }
  after { start with sr := sr, gen := g } w
    (fun t => t.sr == sr' && decide (t.gen = { g with r1 := r1' }) && t.ph == 0 && t.pl == 0x0402)

/-! Well-formedness: for each check an ill-formed term, which it refuses -/

theorem test_wellFormed_refuses :
    (Instr.addi ⟨.sr, 0, .keep, .al⟩).wellFormed = false ∧
    (Instr.copi ⟨.sr, 0x1180, .keep, .al⟩).wellFormed = false ∧
    (Instr.copi ⟨.r1, 0x1900, .alu, .eq⟩).wellFormed = false ∧
    (Instr.ldea ⟨.ph, 4, .a, .al⟩).wellFormed = false ∧
    (Instr.ldeaR ⟨.ph, .r1, .sr, ⟨.lit 0, .none⟩, .a, .al⟩).wellFormed = false ∧
    (Instr.addiS ⟨.r3, 0, ⟨.lit 5, .rtr⟩, .shift, .al⟩).wellFormed = false ∧
    (Instr.orriS ⟨.r1, 0, ⟨.lit 3, .lsl⟩, .shift, .al⟩).wellFormed = false ∧
    (Instr.addr ⟨.r1, .sr, .r2, ⟨.lit 3, .asl⟩, .shift, .al⟩).wellFormed = false ∧
    (Instr.ljmp ⟨0, .l, .al⟩).wellFormed = false := by decide

/-- The terms next to those are well formed. -/
theorem test_wellFormed_accepts :
    (Instr.addi ⟨.sr, 0, .alu, .al⟩).wellFormed = true ∧
    (Instr.addi ⟨.sr, 0, .keep, .eq⟩).wellFormed = true ∧
    (Instr.copi ⟨.sr, 0x1200, .keep, .al⟩).wellFormed = true ∧
    (Instr.ldea ⟨.pl, 4, .a, .al⟩).wellFormed = true ∧
    (Instr.orriS ⟨.r1, 1, ⟨.lit 3, .lsl⟩, .shift, .al⟩).wellFormed = true ∧
    (Instr.ljmp ⟨0, .a, .al⟩).wellFormed = true ∧ (Instr.ljmp ⟨2, .l, .al⟩).wellFormed = true := by decide

/-! Decoding: words the spec writes out, one for every constructor -/

/-- Immediate format (rules R180 to R194, Table 5.2). -/
theorem test_decode_immediate :
    decodeWord 0x00401910 = .addi ⟨.r1, 100, .alu, .al⟩ ∧
    decodeWord 0x04401910 = .adci ⟨.r1, 100, .alu, .al⟩ ∧
    decodeWord 0x0980029B = .subi ⟨.r6, 10, .alu, .ge⟩ ∧
    decodeWord 0x0C400050 = .sbci ⟨.r1, 1, .alu, .al⟩ ∧
    decodeWord 0x10387FC0 = .andi ⟨.sr, 0xE1FF, .keep, .al⟩ ∧
    decodeWord 0x14400D10 = .orri ⟨.r1, 0x34, .alu, .al⟩ ∧
    decodeWord 0x187FFFD0 = .xori ⟨.r1, 0xFFFF, .alu, .al⟩ ∧
    decodeWord 0x1C410D10 = .loadi ⟨.r1, 0x0434, .alu, .al⟩ ∧
    decodeWord 0x20401910 = .addTest08 ⟨.r1, 100, .alu, .al⟩ ∧
    decodeWord 0x24401910 = .adcTest09 ⟨.r1, 100, .alu, .al⟩ ∧
    decodeWord 0x28A00010 = .cmpi ⟨.r2, 0x8000, .alu, .al⟩ ∧
    decodeWord 0x2C400050 = .sbcTest0B ⟨.r1, 1, .alu, .al⟩ ∧
    decodeWord 0x30401FD0 = .tsai ⟨.r1, 0x7F, .alu, .al⟩ ∧
    decodeWord 0x34400D10 = .orrTest0D ⟨.r1, 0x34, .alu, .al⟩ ∧
    decodeWord 0x387FFFD0 = .tsxi ⟨.r1, 0xFFFF, .alu, .al⟩ ∧
    decodeWord 0x3C048000 = .copi ⟨.sr, 0x1200, .keep, .al⟩ := by decide

/-- Memory and control-flow instructions (rules R234 to R244, R252 to R259, Tables 5.2 and 5.4). -/
theorem test_decode_memory_control :
    decodeWord 0x413FFFA0 = .storInd ⟨.r4, 0xFFFE, .s, .al⟩ ∧
    decodeWord 0x44480450 = .storIndR ⟨.r1, .r2, .sr, ⟨.lit 1, .lsl⟩, .a, .al⟩ ∧
    decodeWord 0x49000020 = .storPre ⟨.r4, 0, .s, .al⟩ ∧
    decodeWord 0x4C480020 = .storPreR ⟨.r1, .r2, .sr, ⟨.lit 0, .none⟩, .s, .al⟩ ∧
    decodeWord 0x50C00410 = .loadInd ⟨.r3, 16, .a, .al⟩ ∧
    decodeWord 0x54C80850 = .loadIndR ⟨.r3, .r2, .sr, ⟨.lit 1, .lsr⟩, .a, .al⟩ ∧
    decodeWord 0x59400020 = .loadPost ⟨.r5, 0, .s, .al⟩ ∧
    decodeWord 0x5CC80450 = .loadPostR ⟨.r3, .r2, .sr, ⟨.lit 1, .lsl⟩, .a, .al⟩ ∧
    decodeWord 0x62800410 = .ldea ⟨.ah, 16, .a, .al⟩ ∧
    decodeWord 0x66040030 = .ldeaR ⟨.lh, .r1, .sr, ⟨.lit 0, .none⟩, .p, .al⟩ ∧
    decodeWord 0x683FFC32 = .bran ⟨.sr, 0xFFF0, .p, .ne⟩ ∧
    decodeWord 0x6C0404B0 = .branR ⟨.sr, .r1, .sr, ⟨.lit 2, .lsl⟩, .p, .al⟩ ∧
    decodeWord 0x7000001D = .ljsr ⟨.sr, 0, .a, .gt⟩ ∧
    decodeWord 0x74040010 = .ljsrR ⟨.sr, .r1, .sr, ⟨.lit 0, .none⟩, .a, .al⟩ ∧
    decodeWord 0x78001030 = .brsr ⟨.sr, 0x40, .p, .al⟩ ∧
    decodeWord 0x7C040030 = .brsrR ⟨.sr, .r1, .sr, ⟨.lit 0, .none⟩, .p, .al⟩ := by decide

/-- Short immediate format (rules R195 to R209, Table 5.3). -/
theorem test_decode_short :
    decodeWord 0x804084D0 = .addiS ⟨.r1, 2, ⟨.lit 3, .lsl⟩, .alu, .al⟩ ∧
    decodeWord 0x84590490 = .adciS ⟨.r1, 0x64, ⟨.lit 2, .lsl⟩, .alu, .al⟩ ∧
    decodeWord 0x89016490 = .subiS ⟨.r4, 5, ⟨.reg .r2, .lsl⟩, .alu, .al⟩ ∧
    decodeWord 0x8C404490 = .sbciS ⟨.r1, 1, ⟨.lit 2, .lsl⟩, .alu, .al⟩ ∧
    decodeWord 0x90C1D090 = .andiS ⟨.r3, 7, ⟨.lit 2, .asr⟩, .alu, .al⟩ ∧
    decodeWord 0x94804690 = .orriS ⟨.r2, 1, ⟨.lit 10, .lsl⟩, .alu, .al⟩ ∧
    decodeWord 0x99C3C912 = .xoriS ⟨.r7, 15, ⟨.lit 4, .lsr⟩, .alu, .ne⟩ ∧
    decodeWord 0x9C4D0010 = .loadS ⟨.r1, 0x34, ⟨.lit 0, .none⟩, .alu, .al⟩ ∧
    decodeWord 0xA0590490 = .addTest28 ⟨.r1, 0x64, ⟨.lit 2, .lsl⟩, .alu, .al⟩ ∧
    decodeWord 0xA4590490 = .adcTest29 ⟨.r1, 0x64, ⟨.lit 2, .lsl⟩, .alu, .al⟩ ∧
    decodeWord 0xA84234D5 = .cmpiS ⟨.r1, 8, ⟨.reg .r3, .rtl⟩, .alu, .ns⟩ ∧
    decodeWord 0xAC404490 = .sbcTest2B ⟨.r1, 1, ⟨.lit 2, .lsl⟩, .alu, .al⟩ ∧
    decodeWord 0xB05FC490 = .tsaiS ⟨.r1, 0x7F, ⟨.lit 2, .lsl⟩, .alu, .al⟩ ∧
    decodeWord 0xB44D0490 = .orrTest2D ⟨.r1, 0x34, ⟨.lit 2, .lsl⟩, .alu, .al⟩ ∧
    decodeWord 0xB85FC490 = .tsxiS ⟨.r1, 0x7F, ⟨.lit 2, .lsl⟩, .alu, .al⟩ ∧
    decodeWord 0xBC064000 = .copiS ⟨.sr, 0x19, ⟨.lit 0, .none⟩, .keep, .al⟩ := by decide

/-- Register format (rules R210 to R224, Table 5.4). -/
theorem test_decode_register :
    decodeWord 0xC048C490 = .addr ⟨.r1, .r2, .r3, ⟨.lit 2, .lsl⟩, .alu, .al⟩ ∧
    decodeWord 0xC448C450 = .adcr ⟨.r1, .r2, .r3, ⟨.lit 1, .lsl⟩, .alu, .al⟩ ∧
    decodeWord 0xC848F11D = .subr ⟨.r1, .r2, .r3, ⟨.reg .r4, .asr⟩, .alu, .gt⟩ ∧
    decodeWord 0xCC48C450 = .sbcr ⟨.r1, .r2, .r3, ⟨.lit 1, .lsl⟩, .alu, .al⟩ ∧
    decodeWord 0xD159E453 = .andr ⟨.r5, .r6, .r7, ⟨.reg .r1, .lsl⟩, .alu, .cs⟩ ∧
    decodeWord 0xD448C450 = .orrr ⟨.r1, .r2, .r3, ⟨.lit 1, .lsl⟩, .alu, .al⟩ ∧
    decodeWord 0xD88D1850 = .xorr ⟨.r2, .r3, .r4, ⟨.lit 1, .rtr⟩, .alu, .al⟩ ∧
    decodeWord 0xDC44C010 = .loadr ⟨.r1, .r1, .r3, ⟨.lit 0, .none⟩, .alu, .al⟩ ∧
    decodeWord 0xE088C450 = .addTest38 ⟨.r2, .r2, .r3, ⟨.lit 1, .lsl⟩, .alu, .al⟩ ∧
    decodeWord 0xE488C450 = .adcTest39 ⟨.r2, .r2, .r3, ⟨.lit 1, .lsl⟩, .alu, .al⟩ ∧
    decodeWord 0xE9114010 = .cmpr ⟨.r4, .r4, .r5, ⟨.lit 0, .none⟩, .alu, .al⟩ ∧
    decodeWord 0xEC88C450 = .sbcTest3B ⟨.r2, .r2, .r3, ⟨.lit 1, .lsl⟩, .alu, .al⟩ ∧
    decodeWord 0xF088C450 = .tsar ⟨.r2, .r2, .r3, ⟨.lit 1, .lsl⟩, .alu, .al⟩ ∧
    decodeWord 0xF488C450 = .orrTest3D ⟨.r2, .r2, .r3, ⟨.lit 1, .lsl⟩, .alu, .al⟩ ∧
    decodeWord 0xF888C450 = .tsxr ⟨.r2, .r2, .r3, ⟨.lit 1, .lsl⟩, .alu, .al⟩ ∧
    decodeWord 0xFC00C000 = .copr ⟨.sr, .sr, .r3, ⟨.lit 0, .none⟩, .keep, .al⟩ := by decide

/-- The rows that name words of a core instruction (rules R300 to R311). -/
theorem test_decode_named :
    decodeWord 0x3C046000 = .excp ⟨.sr, 0x80, .keep, .al⟩ ∧
    decodeWord 0x3C064000 = .wait ⟨.sr, 0, .keep, .al⟩ ∧
    decodeWord 0x3C068000 = .rete ⟨.sr, 0, .keep, .al⟩ ∧
    decodeWord 0x3C06C000 = .rset ⟨.sr, 0, .keep, .al⟩ ∧
    decodeWord 0x3C070D80 = .etfr ⟨.sr, 0x36, .keep, .al⟩ ∧
    decodeWord 0x3C074980 = .ettr ⟨.sr, 0x26, .keep, .al⟩ ∧
    decodeWord 0x00000000 = .noop ∧
    decodeWord 0x63800000 = .rets .al ∧
    decodeWord 0x63800410 = .ljmp ⟨16, .a, .al⟩ ∧
    decodeWord 0x67840010 = .ljmpR ⟨.r1, .sr, ⟨.lit 0, .none⟩, .a, .al⟩ ∧
    decodeWord 0x80C01960 = .shfi ⟨.r3, 0, ⟨.lit 5, .rtr⟩, .al⟩ ∧
    decodeWord 0xC0408CE0 = .shfr ⟨.r1, .sr, .r2, ⟨.lit 3, .asl⟩, .al⟩ ∧
    decodeWord 0x944004E0 = .shft ⟨.r1, ⟨.lit 3, .lsl⟩, .al⟩ := by decide

/-- The high word of an instruction comes first; one word holds none (rules R61, R90). -/
theorem test_decode_words :
    decode [0x0040, 0x1910, 0xFFFF] = .ok (.addi ⟨.r1, 100, .alu, .al⟩, [0xFFFF]) ∧
    decode [0x0040] = .error .truncated ∧
    decodeTableWord 32 0x00401910 = some (.addi ⟨.r1, 100, .alu, .al⟩) := by decide

/-! The shifter (`spec/96_derived_vectors.md` section 2.1) -/

/-- S6, S16, S24, S31, S37: counts 1, 4 and 15, with the bit shifted out. -/
theorem test_shifter :
    shiftOutput .lsl 0x0003 15 false = some ⟨0x8000, some true⟩ ∧
    shiftOutput .asl 0x8000 1 false = some ⟨0x0000, some true⟩ ∧
    shiftOutput .lsr 0x4000 15 false = some ⟨0x0000, some true⟩ ∧
    shiftOutput .asr 0x8000 15 false = some ⟨0xFFFF, some false⟩ ∧
    shiftOutput .rtl 0xFFFF 15 false = some ⟨0xBFFF, some true⟩ ∧
    shiftOutput .rtr 0x1234 4 true = some ⟨0x9123, some false⟩ ∧
    shiftOutput .rtl 0x00FF 0 true = some ⟨0x00FF, none⟩ := by decide

/-! The ALU instructions: the examples of rules R180 to R224, a condition that fails among them -/

/-- Rule R180. -/
theorem test_addi :
    aluGives 0 0x0005 0 0 0x00401910 0 0x0069 = true ∧
    aluGives 0 0x7fff 0 0 0x00400050 0x000a 0x8000 = true := by decide

/-- Rule R181. -/
theorem test_adci :
    aluGives 0x0004 0x0005 0 0 0x04401910 0 0x006a = true ∧
    aluGives 0x0004 0xffff 0 0 0x04400010 0x0005 0 = true := by decide

/-- Rule R182. -/
theorem test_subi :
    aluGives 0 0x0005 0 0 0x08400050 0x0004 0x0004 = true ∧
    aluGives 0 0 0 0 0x08400050 0x0002 0xffff = true := by decide

/-- Rule R183. -/
theorem test_sbci :
    aluGives 0 0x0005 0 0 0x0C400050 0x0004 0x0003 = true ∧
    aluGives 0x0004 0x0005 0 0 0x0C400150 0x0005 0 = true := by decide

/-- Rule R184. -/
theorem test_andi :
    aluGives 0 0x12f4 0 0 0x10401FD0 0 0x0074 = true ∧
    aluGives 0 0x8001 0 0 0x10600010 0x0002 0x8000 = true := by decide

/-- Rule R185. -/
theorem test_orri :
    aluGives 0 0x1200 0 0 0x14400D10 0 0x1234 = true ∧
    aluGives 0 0 0 0 0x14400010 0x0001 0 = true := by decide

/-- Rule R186. -/
theorem test_xori :
    aluGives 0 0x00ff 0 0 0x187FFFD0 0x0002 0xff00 = true ∧
    aluGives 0 0x1234 0 0 0x18448D10 0x0001 0 = true := by decide

/-- Rule R187. -/
theorem test_loadi :
    aluGives 0 0x0005 0 0 0x1C410D10 0 0x0434 = true := by decide

/-- Rule R188. -/
theorem test_addTest08 :
    aluGives 0 0x0005 0 0 0x20401910 0 0x0005 = true ∧
    aluGives 0 0x7fff 0 0 0x20400050 0x000a 0x7fff = true := by decide

/-- Rule R189. -/
theorem test_adcTest09 :
    aluGives 0x0004 0x0005 0 0 0x24401910 0 0x0005 = true ∧
    aluGives 0x0004 0xffff 0 0 0x24400010 0x0005 0xffff = true := by decide

/-- Rule R190. -/
theorem test_cmpi :
    aluGives 0 0x0005 0 0 0x28400050 0x0004 0x0005 = true ∧
    aluGives 0 0 0 0 0x28400050 0x0002 0 = true := by decide

/-- Rule R191. -/
theorem test_sbcTest0B :
    aluGives 0 0x0005 0 0 0x2C400050 0x0004 0x0005 = true ∧
    aluGives 0x0004 0x0005 0 0 0x2C400150 0x0005 0x0005 = true := by decide

/-- Rule R192. -/
theorem test_tsai :
    aluGives 0 0x12f4 0 0 0x30401FD0 0 0x12f4 = true ∧
    aluGives 0 0x8001 0 0 0x30600010 0x0002 0x8001 = true := by decide

/-- Rule R193. -/
theorem test_orrTest0D :
    aluGives 0 0x1200 0 0 0x34400D10 0 0x1200 = true ∧
    aluGives 0 0 0 0 0x34400010 0x0001 0 = true := by decide

/-- Rule R194. -/
theorem test_tsxi :
    aluGives 0 0x00ff 0 0 0x387FFFD0 0x0002 0x00ff = true ∧
    aluGives 0 0x1234 0 0 0x38448D10 0x0001 0x1234 = true := by decide

/-- Rule R195. -/
theorem test_addiS :
    aluGives 0 0x0005 0 0 0x80590490 0 0x0078 = true ∧
    aluGives 0 0x7fff 0 0 0x80404010 0x000a 0x8000 = true := by decide

/-- Rule R196. -/
theorem test_adciS :
    aluGives 0x0004 0x0005 0 0 0x84590490 0 0x0079 = true ∧
    aluGives 0x0004 0xffff 0 0 0x84400010 0x0005 0 = true := by decide

/-- Rule R197. -/
theorem test_subiS :
    aluGives 0 0x0005 0 0 0x88404490 0x0004 0x0013 = true ∧
    aluGives 0 0 0 0 0x88404010 0x0002 0xffff = true := by decide

/-- Rule R198. -/
theorem test_sbciS :
    aluGives 0 0x0005 0 0 0x8C404490 0x0004 0x0012 = true ∧
    aluGives 0x0004 0x0005 0 0 0x8C414010 0x0005 0 = true := by decide

/-- Rule R199. -/
theorem test_andiS :
    aluGives 0 0x12f4 0 0 0x905FC490 0 0x0050 = true ∧
    aluGives 0 0x8001 0 0 0x90400010 0x0001 0 = true := by decide

/-- Rule R200. -/
theorem test_orriS :
    aluGives 0 0x1200 0 0 0x944D0490 0 0x4834 = true ∧
    aluGives 0 0 0 0 0x94400010 0x0001 0 = true := by decide

/-- Rule R201. -/
theorem test_xoriS :
    aluGives 0 0x00ff 0 0 0x985FC490 0 0x0383 = true ∧
    aluGives 0 0x1234 0 0 0x984D0010 0 0x1200 = true := by decide

/-- Rule R202. -/
theorem test_loadS :
    aluGives 0 0x0005 0 0 0x9C4D0010 0 0x0034 = true := by decide

/-- Rule R203. -/
theorem test_addTest28 :
    aluGives 0 0x0005 0 0 0xA0590490 0 0x0005 = true ∧
    aluGives 0 0x7fff 0 0 0xA0404010 0x000a 0x7fff = true := by decide

/-- Rule R204. -/
theorem test_adcTest29 :
    aluGives 0x0004 0x0005 0 0 0xA4590490 0 0x0005 = true ∧
    aluGives 0x0004 0xffff 0 0 0xA4400010 0x0005 0xffff = true := by decide

/-- Rule R205. -/
theorem test_cmpiS :
    aluGives 0 0x0005 0 0 0xA8404490 0x0004 0x0005 = true ∧
    aluGives 0 0 0 0 0xA8404010 0x0002 0 = true := by decide

/-- Rule R206. -/
theorem test_sbcTest2B :
    aluGives 0 0x0005 0 0 0xAC404490 0x0004 0x0005 = true ∧
    aluGives 0x0004 0x0005 0 0 0xAC414010 0x0005 0x0005 = true := by decide

/-- Rule R207. -/
theorem test_tsaiS :
    aluGives 0 0x12f4 0 0 0xB05FC490 0 0x12f4 = true ∧
    aluGives 0 0x8001 0 0 0xB0400010 0x0001 0x8001 = true := by decide

/-- Rule R208. -/
theorem test_orrTest2D :
    aluGives 0 0x1200 0 0 0xB44D0490 0 0x1200 = true ∧
    aluGives 0 0 0 0 0xB4400010 0x0001 0 = true := by decide

/-- Rule R209. -/
theorem test_tsxiS :
    aluGives 0 0x00ff 0 0 0xB85FC490 0 0x00ff = true ∧
    aluGives 0 0x1234 0 0 0xB84D0010 0 0x1234 = true := by decide

/-- Rule R210. -/
theorem test_addr :
    aluGives 0 0xaaaa 0x0005 0x0064 0xC048C450 0 0x006e = true ∧
    aluGives 0 0xaaaa 0x7fff 0x0001 0xC048C010 0x000a 0x8000 = true := by decide

/-- Rule R211. -/
theorem test_adcr :
    aluGives 0x0004 0xaaaa 0x0005 0x0064 0xC448C450 0 0x006f = true ∧
    aluGives 0x0004 0xaaaa 0xffff 0 0xC448C010 0x0005 0 = true := by decide

/-- Rule R212. -/
theorem test_subr :
    aluGives 0 0xaaaa 0x0005 0x0001 0xC848C450 0x0004 0x0009 = true ∧
    aluGives 0 0xaaaa 0 0x0001 0xC848C010 0x0002 0xffff = true := by decide

/-- Rule R213. -/
theorem test_sbcr :
    aluGives 0 0xaaaa 0x0005 0x0001 0xCC48C450 0x0004 0x0008 = true ∧
    aluGives 0x0004 0xaaaa 0x0005 0x0005 0xCC48C010 0x0005 0 = true := by decide

/-- Rule R214. -/
theorem test_andr :
    aluGives 0 0xaaaa 0x12f4 0x007f 0xD048C450 0 0x0068 = true ∧
    aluGives 0 0xaaaa 0x8001 0x8000 0xD048C010 0x0002 0x8000 = true := by decide

/-- Rule R215. -/
theorem test_orrr :
    aluGives 0 0xaaaa 0x1200 0x0034 0xD448C450 0 0x2434 = true ∧
    aluGives 0 0xaaaa 0 0 0xD448C010 0x0001 0 = true := by decide

/-- Rule R216. -/
theorem test_xorr :
    aluGives 0 0xaaaa 0x00ff 0xffff 0xD848C450 0x0002 0xfe01 = true ∧
    aluGives 0 0xaaaa 0x1234 0x1234 0xD848C010 0x0001 0 = true := by decide

/-- Rule R217. -/
theorem test_loadr :
    aluGives 0 0x0005 0 0x0434 0xDC44C010 0 0x0434 = true := by decide

/-- Rule R218. -/
theorem test_addTest38 :
    aluGives 0 0xaaaa 0x0005 0x0064 0xE088C450 0 0xaaaa = true ∧
    aluGives 0 0xaaaa 0x7fff 0x0001 0xE088C010 0x000a 0xaaaa = true := by decide

/-- Rule R219. -/
theorem test_adcTest39 :
    aluGives 0x0004 0xaaaa 0x0005 0x0064 0xE488C450 0 0xaaaa = true ∧
    aluGives 0x0004 0xaaaa 0xffff 0 0xE488C010 0x0005 0xaaaa = true := by decide

/-- Rule R220. -/
theorem test_cmpr :
    aluGives 0 0xaaaa 0x0005 0x0001 0xE888C450 0x0004 0xaaaa = true ∧
    aluGives 0 0xaaaa 0 0x0001 0xE888C010 0x0002 0xaaaa = true := by decide

/-- Rule R221. -/
theorem test_sbcTest3B :
    aluGives 0 0xaaaa 0x0005 0x0001 0xEC88C450 0x0004 0xaaaa = true ∧
    aluGives 0x0004 0xaaaa 0x0005 0x0005 0xEC88C010 0x0005 0xaaaa = true := by decide

/-- Rule R222. -/
theorem test_tsar :
    aluGives 0 0xaaaa 0x12f4 0x007f 0xF088C450 0 0xaaaa = true ∧
    aluGives 0 0xaaaa 0x8001 0x8000 0xF088C010 0x0002 0xaaaa = true := by decide

/-- Rule R223. -/
theorem test_orrTest3D :
    aluGives 0 0xaaaa 0x1200 0x0034 0xF488C450 0 0xaaaa = true ∧
    aluGives 0 0xaaaa 0 0 0xF488C010 0x0001 0xaaaa = true := by decide

/-- Rule R224. -/
theorem test_tsxr :
    aluGives 0 0xaaaa 0x00ff 0xffff 0xF888C450 0x0002 0xaaaa = true ∧
    aluGives 0 0xaaaa 0x1234 0x1234 0xF888C010 0x0001 0xaaaa = true := by decide

/-! Flag sources, conditions and the status register as an operand -/

/-- F120, F121 of `spec/96_derived_vectors.md`. -/
theorem test_flags_from_shifter :
    after { start with sr := 0x000c, gen := { GenRegs.zero with r1 := 0xffff } } 0x00400060
      (fun t => t.statusWord == 0x000e && t.gen.r1 == 0x0000 && t.pl == 0x0402) = true ∧
    after { start with sr := 0x0004, gen := { GenRegs.zero with r1 := 0x4000 } } 0x80404C60
      (fun t => t.statusWord == 0x000a && t.gen.r1 == 0x8001 && t.pl == 0x0402) = true := by decide

/-- F125, F128 of `spec/96_derived_vectors.md`. -/
theorem test_condition_fails :
    after { start with gen := { GenRegs.zero with r1 := 0x0005 } } 0x00400051
      (fun t => t.statusWord == 0x0000 && t.gen.r1 == 0x0005 && t.pl == 0x0402) = true ∧
    after { start with sr := 0x0100, gen := { GenRegs.zero with ah := 0x0005 } } 0x0280005F
      (fun t => t.statusWord == 0x0100 && t.pl == 0x0402) = true := by decide

/-- X138, X142 of `spec/96_derived_vectors.md`. -/
theorem test_sr_destination :
    after start 0x14000150 (fun t => t.statusWord == 0x0000 && t.pl == 0x0402) = true ∧
    after { start with sr := 0x0100 } 0x14003D40 (fun t => t.statusWord == 0x01f5 && t.pl == 0x0402) = true := by decide

/-- X144, X145 of `spec/96_derived_vectors.md`. -/
theorem test_sr_source :
    after { start with sr := 0x5e0a, level := 3 } 0xDDDC0010
      (fun t => t.statusWord == 0x7e0a && t.gen.r7 == 0x7e0a && t.pl == 0x0402) = true ∧
    after { start with sr := 0x5f0a } 0xDDDC0010
      (fun t => t.statusWord == 0x5f0a && t.gen.r7 == 0x000a && t.pl == 0x0402) = true := by decide

/-! Memory instructions -/

/-- M149 of `spec/96_derived_vectors.md`. -/
theorem test_storInd :
    after { start with gen := { GenRegs.zero with r1 := 0xcafe, ah := 0x0012, al := 0x3000 } } 0x40400210
      (fun t => t.statusWord == 0x0000 && t.gen.r1 == 0xcafe && t.pl == 0x0402 && t.word 0x123008 == 0xcafe) = true := by decide

/-- M150, M160 of `spec/96_derived_vectors.md`. -/
theorem test_storIndR :
    after { start with
        gen := { GenRegs.zero with r1 := 0xcafe, r2 := 0xffff, ah := 0x0012, al := 0x3000 } } 0x44480010
      (fun t => t.statusWord == 0x0000 && t.gen.r1 == 0xcafe && t.pl == 0x0402 && t.word 0x122fff == 0xcafe) = true ∧
    after { start with
        gen := { GenRegs.zero with r1 := 0xc001, r2 := 0x0002, ah := 0x0012, al := 0x3000 } } 0x44480450
      (fun t => t.statusWord == 0x0000 && t.gen.r1 == 0xc001 && t.pl == 0x0402 && t.word 0x123002 == 0x8002) = true := by decide

/-- M151 of `spec/96_derived_vectors.md`. -/
theorem test_storPre :
    after { start with gen := { GenRegs.zero with r4 := 0x4444, sh := 0x0001, sl := 0x8000 } } 0x49000020
      (fun t => t.statusWord == 0x0000 && t.gen.sl == 0x7fff && t.pl == 0x0402 && t.word 0x017fff == 0x4444) = true := by decide

/-- M166 of `spec/96_derived_vectors.md`. -/
theorem test_storPre_wraps :
    after { start with gen := { GenRegs.zero with r1 := 0x1111, sh := 0x0001 } } 0x48400020
      (fun t => t.statusWord == 0x0000 && t.gen.r1 == 0x1111 && t.gen.sl == 0xffff && t.pl == 0x0402 &&
        t.word 0x01ffff == 0x1111) = true := by decide

/-- M153 of `spec/96_derived_vectors.md`. -/
theorem test_storPreR :
    after { start with
        gen := { GenRegs.zero with r1 := 0x1111, r2 := 0x0003, sh := 0x0001, sl := 0x8000 } } 0x4C480020
      (fun t => t.statusWord == 0x0000 && t.gen.r1 == 0x1111 && t.gen.sl == 0x7fff && t.pl == 0x0402 &&
        t.word 0x018002 == 0x1111) = true := by decide

/-- M162 of `spec/96_derived_vectors.md`. -/
theorem test_loadInd :
    after { start with
        gen := { GenRegs.zero with ah := 0x0012 }
        mem := Memory.setWord start.mem 0x12ffff 0x7777 } 0x507FFFD0
      (fun t => t.statusWord == 0x0000 && t.gen.r1 == 0x7777 && t.pl == 0x0402) = true := by decide

/-- M174 of `spec/96_derived_vectors.md`. -/
theorem test_loadInd_fault :
    after { start with
        gen := { GenRegs.zero with ah := 0x0012, al := 0x3000 }
        platform := { Platform.default with busErrors := [⟨0x123010, 0x123010⟩] } } 0x50C00410
      (fun t => t.statusWord == 0x2000 && t.pl == 0x1010 && t.level == 7 && t.links[6].address == 0x400 &&
        t.links[6].status == 0x0000 && t.links[7].address == 0x123010 && t.links[7].status == 0x0014) = true := by decide

/-- M161 of `spec/96_derived_vectors.md`. -/
theorem test_loadIndR :
    after { start with
        sr := 0x0004, gen := { GenRegs.zero with ah := 0x0012, al := 0x3000 }
        mem := Memory.setWord start.mem 0x123000 0x8000 } 0x54C81450
      (fun t => t.statusWord == 0x0004 && t.gen.r3 == 0x0001 && t.pl == 0x0402) = true := by decide

/-- M168 of `spec/96_derived_vectors.md`. -/
theorem test_loadPost :
    after { start with
        gen := { GenRegs.zero with ah := 0x0012, al := 0x3000 }
        mem := Memory.setWord start.mem 0x123000 0x9999 } 0x5AC00010
      (fun t => t.statusWord == 0x0000 && t.gen.al == 0x3001 && t.pl == 0x0402) = true := by decide

/-- M165 of `spec/96_derived_vectors.md`. -/
theorem test_loadPost_overflow :
    after { start with
        sr := 0x4000, gen := { GenRegs.zero with ah := 0x0012, al := 0xffff }
        mem := Memory.setWord start.mem 0x12ffff 0x7777 } 0x58400010
      (fun t => t.statusWord == 0x6000 && t.pl == 0x1030 && t.level == 7 && t.links[6].address == 0x400 &&
        t.links[6].status == 0x4000 && t.links[7].address == 0x0 && t.links[7].status == 0x0033) = true := by decide

/-- M158 of `spec/96_derived_vectors.md`. -/
theorem test_loadPostR :
    after { start with
        gen := { GenRegs.zero with r2 := 0x0002, sh := 0x0001, sl := 0x7fff }
        mem := Memory.setWord start.mem 0x018001 0x6666 } 0x5C480020
      (fun t => t.statusWord == 0x0000 && t.gen.r1 == 0x6666 && t.gen.sl == 0x8000 && t.pl == 0x0402) = true := by decide

/-! Control flow -/

/-- C178 of `spec/96_derived_vectors.md`. -/
theorem test_ldea :
    after { start with gen := { GenRegs.zero with ah := 0x0012, al := 0x3000 } } 0x633FFF10
      (fun t => t.statusWord == 0x0000 && t.gen.sh == 0x0012 && t.gen.sl == 0x2ffc && t.pl == 0x0402) = true := by decide

/-- C196 of `spec/96_derived_vectors.md`. -/
theorem test_ldea_protected :
    after { start with sr := 0x0100, gen := { GenRegs.zero with ah := 0x0002, al := 0x0100 } } 0x62800050
      (fun t => t.statusWord == 0x2000 && t.pl == 0x1050 && t.level == 7 && t.links[6].address == 0x400 &&
        t.links[6].status == 0x0100 && t.links[7].address == 0x0 && t.links[7].status == 0x0053) = true := by decide

/-- C181 of `spec/96_derived_vectors.md`. -/
theorem test_ldeaR :
    after { start with gen := { GenRegs.zero with r1 := 0xfffe } } 0x66040030
      (fun t => t.statusWord == 0x0000 && t.gen.r1 == 0xfffe && t.gen.ll == 0x0400 && t.pl == 0x0402) = true := by decide

/-- C184, C187 of `spec/96_derived_vectors.md`. -/
theorem test_bran :
    after start 0x683FFC32 (fun t => t.statusWord == 0x0000 && t.pl == 0x03f2) = true ∧
    after { start with gen := { GenRegs.zero with ah := 0x0055, al := 0x0200 } } 0x68000010
      (fun t => t.statusWord == 0x0000 && t.pl == 0x0200) = true := by decide

/-- C202 of `spec/96_derived_vectors.md`. -/
theorem test_bran_overflow :
    after { start with sr := 0x4000, pl := 0xf000 } 0x681FFFF0
      (fun t => t.statusWord == 0x6000 && t.pl == 0x1030 && t.level == 7 && t.links[6].address == 0xf000 &&
        t.links[6].status == 0x4000 && t.links[7].address == 0x0 && t.links[7].status == 0x0033) = true := by decide

/-- C204 of `spec/96_derived_vectors.md`. -/
theorem test_branR :
    after { start with gen := { GenRegs.zero with r1 := 0x0006 } } 0x6C0404B0
      (fun t => t.statusWord == 0x0000 && t.gen.r1 == 0x0006 && t.pl == 0x0408) = true := by decide

/-- C192 of `spec/96_derived_vectors.md`. -/
theorem test_ljsr :
    after { start with gen := { GenRegs.zero with lh := 0x0002, ll := 0x0100 } } 0x70000000
      (fun t => t.statusWord == 0x0000 && t.gen.lh == 0x0000 && t.gen.ll == 0x0402 && t.ph == 0x2 &&
        t.pl == 0x0100) = true := by decide

/-- C191 of `spec/96_derived_vectors.md`. -/
theorem test_ljsrR :
    after { start with gen := { GenRegs.zero with r1 := 0x0010, ah := 0x0002, al := 0x0100 } } 0x74040010
      (fun t => t.statusWord == 0x0000 && t.gen.r1 == 0x0010 && t.gen.ll == 0x0402 && t.ph == 0x2 &&
        t.pl == 0x0110) = true := by decide

/-- C193 of `spec/96_derived_vectors.md`. -/
theorem test_brsr :
    after { start with gen := { GenRegs.zero with lh := 0xaaaa, ll := 0xbbbb } } 0x78001030
      (fun t => t.statusWord == 0x0000 && t.gen.ll == 0x0402 && t.pl == 0x0442) = true := by decide

/-- C194 of `spec/96_derived_vectors.md`. -/
theorem test_brsrR :
    after { start with gen := { GenRegs.zero with r1 := 0xfff0 } } 0x7C040030
      (fun t => t.statusWord == 0x0000 && t.gen.r1 == 0xfff0 && t.gen.ll == 0x0402 && t.pl == 0x03f2) = true := by decide

/-! The coprocessor call -/

/-- K205 of `spec/96_derived_vectors.md`. -/
theorem test_excp :
    after { start with sr := 0x0105 } 0x3C046000
      (fun t => t.statusWord == 0x2005 && t.pl == 0x1800 && t.level == 1 && t.links[0].address == 0x402 &&
        t.links[0].status == 0x0105) = true := by decide

/-- K207 of `spec/96_derived_vectors.md`. -/
theorem test_excp_last_vector :
    after { start with
        sr := 0x0100
        mem := Memory.setWord (Memory.setWord start.mem 0x0001fe 0x0002) 0x0001ff 0x0400 } 0x3C047FC0
      (fun t => t.statusWord == 0x2000 && t.ph == 0x2 && t.pl == 0x0400 && t.level == 1 &&
        t.links[0].address == 0x402 && t.links[0].status == 0x0100) = true := by decide

/-- K211 of `spec/96_derived_vectors.md`. -/
theorem test_wait :
    after start 0x3C064000 (fun t => t.statusWord == 0x0000 && t.pl == 0x0402 && t.waiting == true) = true := by decide

/-- K213, K214 of `spec/96_derived_vectors.md`. -/
theorem test_rete :
    after { start with
        sr := 0x0004, pl := 0x1800, level := 1, links := start.links.set 0 ⟨0x20402, 0x0105, 0⟩ } 0x3C068000
      (fun t => t.statusWord == 0x0105 && t.ph == 0x2 && t.pl == 0x0402 && t.level == 0) = true ∧
    after { start with
        sr := 0x1e00, pl := 0x1200, level := 5, links := start.links.set 4 ⟨0x1304, 0x3e00, 4⟩ } 0x3C068000
      (fun t => t.statusWord == 0x3e00 && t.pl == 0x1304 && t.level == 4) = true := by decide

/-- K216 of `spec/96_derived_vectors.md`. -/
theorem test_rset :
    after { start with
        sr := 0x5e0f, gen := { GenRegs.zero with r1 := 0x1234 }, pl := 0x1300, level := 3 } 0x3C06C000
      (fun t => t.statusWord == 0x0000 && t.gen.r1 == 0x1234 && t.pl == 0x1000 && t.level == 0) = true := by decide

/-- K217, K219 of `spec/96_derived_vectors.md`. -/
theorem test_etfr :
    after { start with pl := 0x1050, level := 7, links := start.links.set 6 ⟨0x20400, 0x0103, 0⟩ } 0x3C070D80
      (fun t => t.statusWord == 0x2000 && t.gen.r7 == 0x0103 && t.gen.ah == 0x0002 && t.gen.al == 0x0400 &&
        t.pl == 0x1052) = true ∧
    after { start with pl := 0x1010, level := 7, links := start.links.set 7 ⟨0x123010, 0x0014, 0⟩ } 0x3C0709C0
      (fun t => t.statusWord == 0x2000 && t.gen.r7 == 0x0014 && t.pl == 0x1012) = true := by decide

/-- K221, K222 of `spec/96_derived_vectors.md`. -/
theorem test_ettr :
    after { start with
        gen := { GenRegs.zero with ah := 0x0002, al := 0x0500 }, pl := 0x1050, level := 7
        links := start.links.set 6 ⟨0x20400, 0x0103, 0⟩ } 0x3C074D80
      (fun t => t.statusWord == 0x2000 && t.pl == 0x1052 && t.links[6].address == 0x20500 &&
        t.links[6].status == 0x0000) = true ∧
    after { start with
        gen := { GenRegs.zero with r7 := 0x0003, ah := 0x0002, al := 0x0500 }, pl := 0x1050, level := 7
        links := start.links.set 6 ⟨0x20400, 0x0103, 0⟩ } 0x3C074980
      (fun t => t.statusWord == 0x2000 && t.pl == 0x1052 && t.links[6].address == 0x20400 &&
        t.links[6].status == 0x0003) = true := by decide

/-- K227 of `spec/96_derived_vectors.md`. -/
theorem test_copi :
    after { start with sr := 0x0100 } 0x3C048000
      (fun t => t.statusWord == 0x2000 && t.pl == 0x1040 && t.level == 7 && t.links[6].address == 0x400 &&
        t.links[6].status == 0x0100 && t.links[7].address == 0x0 && t.links[7].status == 0x0043) = true := by decide

/-- K226 of `spec/96_derived_vectors.md`. -/
theorem test_copi_absent :
    after { start with sr := 0x0100 } 0x3C0A0000
      (fun t => t.statusWord == 0x2000 && t.pl == 0x1050 && t.level == 7 && t.links[6].address == 0x400 &&
        t.links[6].status == 0x0100 && t.links[7].address == 0x0 && t.links[7].status == 0x0053) = true := by decide

/-- K232 of `spec/96_derived_vectors.md`. -/
theorem test_copr :
    after { start with sr := 0x0100, gen := { GenRegs.zero with r3 := 0x1180 } } 0xFC00C000
      (fun t => t.statusWord == 0x2000 && t.pl == 0x1800 && t.level == 1 && t.links[0].address == 0x402 &&
        t.links[0].status == 0x0100) = true := by decide

/-! Faults -/

/-- E234 of `spec/96_derived_vectors.md`. -/
theorem test_fetch_odd :
    after { start with sr := 0x0103, pl := 0x0401 } 0x00400050
      (fun t => t.statusWord == 0x2003 && t.pl == 0x1020 && t.level == 7 && t.links[6].address == 0x401 &&
        t.links[6].status == 0x0103 && t.links[7].address == 0x0 && t.links[7].status == 0x0020) = true := by decide

/-- E236 of `spec/96_derived_vectors.md`. -/
theorem test_fetch_bus_error :
    after { start with platform := { Platform.default with busErrors := [⟨0x000401, 0x000401⟩] } } 0x00400050
      (fun t => t.statusWord == 0x2000 && t.pl == 0x1010 && t.level == 7 && t.links[6].address == 0x400 &&
        t.links[6].status == 0x0000 && t.links[7].address == 0x401 && t.links[7].status == 0x0011) = true := by decide

/-- E237, E238 of `spec/96_derived_vectors.md`. -/
theorem test_fetch_wraps :
    after { start with sr := 0x4000, gen := { GenRegs.zero with r1 := 0x0001 }, pl := 0xfffe } 0x00400050
      (fun t => t.statusWord == 0x6000 && t.gen.r1 == 0x0001 && t.pl == 0x1030 && t.level == 7 &&
        t.links[6].address == 0xfffe && t.links[6].status == 0x4000 && t.links[7].address == 0x0 &&
        t.links[7].status == 0x0031) = true ∧
    after { start with gen := { GenRegs.zero with r1 := 0x0001 }, pl := 0xfffe } 0x00400050
      (fun t => t.statusWord == 0x0000 && t.gen.r1 == 0x0002 && t.pl == 0x0000) = true := by decide

/-- E244 of `spec/96_derived_vectors.md`. -/
theorem test_double_fault :
    after { start with
        pl := 0x1050, level := 7
        links := (start.links.set 6 ⟨0x400, 0x0100, 0⟩).set 7 ⟨0x0, 0x0053, 0⟩ } 0x3C080000
      (fun t => t.statusWord == 0x2000 && t.pl == 0x1060 && t.links[6].address == 0x1050 &&
        t.links[6].status == 0x2000 && t.links[7].address == 0x0 && t.links[7].status == 0x056b) = true := by decide

/-- E245, E246 of `spec/96_derived_vectors.md`. -/
theorem test_fault_order :
    after { start with
        sr := 0x4100, gen := { GenRegs.zero with ah := 0x0012 }
        platform := { Platform.default with busErrors := [⟨0x12ffff, 0x12ffff⟩] } } 0x52BFFFD0
      (fun t => t.statusWord == 0x6000 && t.pl == 0x1050 && t.level == 7 && t.links[6].address == 0x400 &&
        t.links[6].status == 0x4100 && t.links[7].address == 0x0 && t.links[7].status == 0x0053) = true ∧
    after { start with
        sr := 0x4100, gen := { GenRegs.zero with ah := 0x0012 }
        platform := { Platform.default with busErrors := [⟨0x12ffff, 0x12ffff⟩] } } 0x507FFFD0
      (fun t => t.statusWord == 0x6000 && t.pl == 0x1030 && t.level == 7 && t.links[6].address == 0x400 &&
        t.links[6].status == 0x4100 && t.links[7].address == 0x0 && t.links[7].status == 0x0033) = true := by decide

/-! Meta-instructions -/

/-- R300: in protected mode too, with the flags kept. -/
theorem test_noop :
    after { start with sr := 0x010F } 0x00000000 (fun t => t.sr == 0x010F && t.pl == 0x0402) = true := by decide

/-- R302: C182 of `spec/96_derived_vectors.md`. -/
theorem test_rets :
    after { start with gen := { GenRegs.zero with lh := 0x0002, ll := 0x0346 } } 0x63800000
      (fun t => t.ph == 2 && t.pl == 0x0346) = true := by decide

/-- C179 of `spec/96_derived_vectors.md`. -/
theorem test_ljmp : after start 0x63801930 (fun t => t.ph == 0 && t.pl == 0x0466) = true := by decide

/-- C180 of `spec/96_derived_vectors.md`. -/
theorem test_ljmpR :
    after { start with gen := { GenRegs.zero with r1 := 8, ah := 0x0040, al := 0x0100 } } 0x67840010
      (fun t => t.ph == 0x0040 && t.pl == 0x0108) = true := by decide

/-- F121 of `spec/96_derived_vectors.md`: the flags of the shift, not of the addition. -/
theorem test_shfi :
    after { start with sr := 4, gen := { GenRegs.zero with r1 := 0x4000 } } 0x80404C60
      (fun t => t.sr == 0x000A && t.gen.r1 == 0x8001) = true := by decide

/-- R310: as encoded, `sr` is the shifted operand: 0x0008 shifted by 3 is 0x0040, no bit leaves and V is computed. -/
theorem test_shfr :
    after { start with sr := 8, gen := { GenRegs.zero with r2 := 1 } } 0xC0408CE0
      (fun t => t.sr == 0 && t.gen.r1 == 0x0041) = true := by decide

/-- R311: two of its worked examples. -/
theorem test_shft :
    after { start with sr := 8, gen := { GenRegs.zero with r1 := 0x3001 } } 0x944004E0
      (fun t => t.sr == 0x000E && t.gen.r1 == 0x8008) = true ∧
    after { start with sr := 4, gen := { GenRegs.zero with r2 := 0x8001 } } 0x94801460
      (fun t => t.sr == 4 && t.gen.r2 == 3) = true := by decide

/-! Inputs for which the spec has no step (`spec/96_derived_vectors.md` section 2.12) -/

def refuses (s : State) (w : Nat) (r : Refusal) : Bool :=
  match step (s.withFetchWord 32 w) with
  | .refused x => x == r
  | .next _ | .fault _ => false

theorem test_refusals :
    refuses start 0xC048DC50 .reservedShiftType = true ∧ refuses start 0x80405C10 .reservedShiftType = true ∧
    refuses start 0x00400070 .reservedFlagSource = true ∧ refuses start 0x1C400170 .reservedFlagSource = true ∧
    refuses start 0xDC448450 .loadWithShift = true ∧ refuses start 0x9C414450 .loadWithShift = true ∧
    refuses start 0x3C004000 .processingUnitCall = true ∧ refuses start 0xBC064000 .processingUnitCall = true ∧
    refuses start 0x3C040000 .internalOperation = true ∧ refuses start 0x3C07C000 .internalOperation = true ∧
    refuses start 0x3C044140 .excpVector = true ∧
    refuses { start with level := 2 } 0x3C046000 .excpNested = true ∧
    refuses start 0x61C00010 .ldeaDestination = true ∧ refuses start 0x3C068000 .reteAtLevelZero = true ∧
    refuses start 0x3C074E40 .linkParameter = true ∧ refuses start 0x3C071D80 .linkParameter = true := by decide

/-! The parameters of rule R6 at values that are not the defaults -/

/-- R98: 0x80 sign-extended and zero-extended; a sign-extended COPI names coprocessor 15, which is absent. -/
theorem test_imm8_sign :
    after { start with platform := { Platform.default with imm8 := .sign } } 0x80600010
      (fun t => t.gen.r1 == 0xFF80 && t.sr == 0x0002) = true ∧
    after start 0x80600010 (fun t => t.gen.r1 == 0x0080 && t.sr == 0) = true ∧
    after { start with platform := { Platform.default with imm8 := .sign } } 0xBC200000
      (fun t => t.pl == 0x1040 && t.level == 7 && t.links[7].status == 0x0043) = true := by decide

/-- R231: `LOAD r3, (r2, a), LSR #1` with the shift on the offset reads the word 8 above `a`, unshifted. -/
theorem test_memory_shift_offset :
    after { start with
        gen := { GenRegs.zero with r2 := 0x0010, ah := 0x0012, al := 0x3000 }
        mem := Memory.setWord start.mem 0x123008 0x8001
        platform := { Platform.default with memShift := .offset } } 0x54C80850
      (fun t => t.gen.r3 == 0x8001 && t.sr == 0) = true := by decide

/-- U22: a store to ROM is dropped, and a load from an absent address completes. -/
theorem test_memory_map :
    after { start with
        gen := { GenRegs.zero with r1 := 0xCAFE, ah := 0x0012, al := 0x3000 }
        platform := { Platform.default with map := [⟨⟨0x120000, 0x12FFFF⟩, .rom⟩] } } 0x40400010
      (fun t => t.word 0x123000 == 0 && t.pl == 0x0402 && t.level == 0) = true ∧
    after { start with
        gen := { GenRegs.zero with ah := 0x0012, al := 0x3000 }
        platform := { Platform.default with map := [⟨⟨0x120000, 0x12FFFF⟩, .absent⟩] } } 0x50400010
      (fun t => t.pl == 0x0402 && t.level == 0) = true := by decide

/-- R178 and R272: an undocumented opcode that the mode declines, and a call to an optional coprocessor. -/
theorem test_optional :
    refuses { start with platform := { Platform.default with undocumented := .refuse } } 0x20400010
      .undocumentedOpcode = true ∧
    refuses { start with platform := { Platform.default with optionalUnits := [2] } } 0x3C080000
      .optionalUnit = true := by decide

/-! Interrupts, waiting and reset (`spec/96_derived_vectors.md` sections 2.10 and 2.11) -/

/-- One step from `s` with the interrupt lines `x` asserted. -/
def asserting (s : State) (x : Lines) (p : State → Bool) : Bool := gives (step { s with inputs := [⟨none, x⟩] }) p

/-- I247, I248, I249: an enabled line, a disabled one, and line 5. -/
theorem test_interrupt_entry :
    asserting { start with sr := 0x0800 } ⟨false, false, true, false, false⟩
      (fun t => t.statusWord == 0x2800 && t.pl == 0x1300 && t.level == 4 && t.links[3].address == 0x400 &&
        t.links[3].status == 0x0800 && t.pending == Lines.none) = true ∧
    asserting { start with sr := 0x1600 } ⟨false, false, true, false, false⟩
      (fun t => t.pl == 0x0402 && t.level == 0 && t.pending == Lines.none) = true ∧
    asserting start ⟨false, false, false, false, true⟩
      (fun t => t.pl == 0x1500 && t.level == 2 && t.links[1].address == 0x400) = true := by decide

/-- I250, I252, I261: a line below the level stays latched, and the highest of two is entered. -/
theorem test_interrupt_order :
    asserting { start with level := 3 } ⟨false, false, false, false, true⟩
      (fun t => t.pl == 0x0402 && t.pending == ⟨false, false, false, false, true⟩) = true ∧
    asserting { start with sr := 0x1E00 } ⟨true, false, false, true, false⟩
      (fun t => t.statusWord == 0x3E00 && t.pl == 0x1100 && t.level == 6 &&
        t.pending == ⟨false, false, false, true, false⟩) = true ∧
    asserting { start with sr := 0x0800, level := 7 } ⟨false, false, true, false, false⟩
      (fun t => t.pl == 0x0402 && t.pending == ⟨false, false, true, false, false⟩) = true := by decide

/-- I256, I257: waiting goes on past a disabled line and ends with an enabled one. -/
theorem test_waiting :
    asserting { start with waiting := true } ⟨false, true, false, false, false⟩
      (fun t => t.pl == 0x0400 && t.waiting && t.pending == Lines.none) = true ∧
    asserting { start with sr := 0x0400, waiting := true } ⟨false, true, false, false, false⟩
      (fun t => t.pl == 0x1200 && t.level == 5 && !t.waiting && t.links[4].address == 0x400) = true := by decide

/-- R346: line 1 in its own handler is a fault at once, and is not latched. -/
theorem test_level_five_conflict :
    asserting { start with sr := 0x0200, level := 6 } ⟨true, false, false, false, false⟩
      (fun t => t.level == 7 && t.links[6].address == 0x400 && t.links[6].level == 6 && !t.pending.one) = true := by
  decide

/-- R344: after an instruction that began with T set the trace fault saves the next instruction, with T cleared. -/
theorem test_trace :
    after { start with sr := 0x8000 } 0x00000000
      (fun t => t.level == 7 && t.sr == 0 && t.links[6].address == 0x402 && t.links[6].status == 0x8000) = true := by
  decide

/-- Z263: a hardware reset reads vector 0 and keeps memory. -/
theorem test_hardware_reset :
    gives (step { start with
        sr := 0x5F0F, level := 3, waiting := true, mem := [(0, 0xAB), (1, 0x12), (2, 0x08)]
        inputs := [⟨some ⟨GenRegs.zero, start.links, 0⟩, Lines.none⟩] })
      (fun t => t.sr == 0 && t.ph == 0xAB12 && t.pl == 0x0800 && t.level == 0 && !t.waiting &&
        t.mem == [(0, 0xAB), (1, 0x12), (2, 0x08)]) = true := by decide

/-- The first step from reset runs the instruction placed at its program counter. -/
theorem test_first_step :
    after State.reset 0x1C401910 (fun t => t.gen.r1 == 100 && t.pl == 2) = true := by decide

/-! Witnesses: for each statement a state and operands that meet its hypotheses, at the ends of their ranges -/

/-- Protected mode. -/
def user : State := { start with sr := 0x0100 }

/-- Supervisor mode with SR.A set, `a` at the last word of its segment, -1 in `r2`. -/
def edge : State := { start with sr := 0x4000, gen := { GenRegs.zero with al := 0xFFFF, r2 := 0xFFFF } }

/-- `start` with T set. -/
def traced : State := { start with sr := 0x8000 }

/-- `start` on a platform that refuses every access. -/
def deaf : State := { start with platform := { Platform.default with busErrors := [⟨0, 0xFFFFFF⟩] } }

theorem start_inv : start.Inv := ⟨by decide, by decide, by decide, fun p h => by cases h⟩

theorem witness_DecodeAfterEncode :
    (Instr.addi ⟨.pl, 0xFFFF, .reserved, .nv⟩).wellFormed = true ∧ Instr.noop.wellFormed = true ∧
    (Instr.shft ⟨.sr, ⟨.reg .pl, .reserved⟩, .nv⟩).wellFormed = true := by decide

theorem witness_InvariantKept : start.Inv ∧ step start = .next (nextOf (step start)) :=
  ⟨start_inv, next_nextOf (by decide)⟩

theorem witness_HardwareResetSequence :
    let v : ResetValues := ⟨GenRegs.zero, start.links, 0xFFFF⟩
    let s := { user with level := 7, inputs := [⟨some v, ⟨true, true, true, true, true⟩⟩] }
    s.inputs = ⟨some v, ⟨true, true, true, true, true⟩⟩ :: [] ∧ s.vectorReadable 0 :=
  ⟨rfl, by unfold State.vectorReadable; decide⟩

theorem witness_StatusRegisterAccess : user.isProtected = true ∧ start.isProtected = false := by decide

theorem witness_HighRegisterStorage :
    Reg.ph ≠ .sr ∧ Reg.r1 ≠ .sr ∧ Reg.r2 ≠ .r1 ∧
    (0x12AB : Word).extractLsb' 0 8 = (0xFFAB : Word).extractLsb' 0 8 := by decide

theorem witness_ShiftsByCount :
    (1 ≤ (1 : Word).toNat ∧ (1 : Word).toNat ≤ 15) ∧ 1 ≤ (15 : Word).toNat ∧ (15 : Word).toNat ≤ 15 := by decide

theorem witness_RotatesThroughCarry :
    (1 ≤ (1 : Word).toNat ∧ (1 : Word).toNat ≤ 15) ∧ 1 ≤ (15 : Word).toNat ∧ (15 : Word).toNat ≤ 15 := by decide

/-- `start` on a platform whose parameters are not the defaults. -/
def other : State :=
  { start with platform :=
    { busErrors := [], map := [⟨⟨0x120000, 0x12FFFF⟩, .rom⟩, ⟨⟨0x130000, 0x13FFFF⟩, .absent⟩],
      optionalUnits := [2], imm8 := .sign, memShift := .offset, undocumented := .refuse } }

theorem witness_ShiftOutputsExist :
    ShiftType.none ≠ .reserved ∧ ShiftType.rtr ≠ .reserved ∧
    shiftOutput .lsl 1 (start.shiftCount (.lit 15)) (srFlags start.sr).c = some ⟨0x8000, some false⟩ ∧
    start.platform.memShift = .data ∧
    shiftOutput .lsl 1 (other.shiftCount (.lit 15)) (srFlags other.sr).c = some ⟨0x8000, some false⟩ ∧
    other.platform.memShift = .offset := by decide

/-- `f` is `ADDI[S] ph, #0xFFFF` in supervisor mode and `ADDI sr, #1` in protected mode. -/
theorem witness_ImmediateAluResult :
    (start.executes .al ∧ FlagSource.shift ≠ .reserved ∧ start.forbidsWrite .ph = false) ∧
    (user.executes .al ∧ FlagSource.alu ≠ .reserved ∧ user.forbidsWrite .sr = false) := by
  unfold State.executes; decide

/-- In protected mode, `f` compares `ph`. -/
theorem witness_ImmediateTestFlags : user.executes .al ∧ FlagSource.shift ≠ .reserved ∧
    user.platform.undocumented = .hardwarePattern := by
  unfold State.executes; decide

theorem witness_ShortAluResult :
    (start.executes .ne ∧ FlagSource.shift ≠ .reserved ∧ ShiftType.rtl ≠ .reserved ∧
      start.forbidsWrite .ah = false) ∧
    (user.executes .ne ∧ FlagSource.keep ≠ .reserved ∧ ShiftType.none ≠ .reserved ∧
      user.forbidsWrite .pl = false) ∧
    start.platform.imm8 = .zero ∧ other.platform.imm8 = .sign := by
  unfold State.executes; decide

theorem witness_ShortTestFlags :
    user.executes .al ∧ FlagSource.alu ≠ .reserved ∧ ShiftType.asl ≠ .reserved ∧
    user.platform.undocumented = .hardwarePattern := by
  unfold State.executes; decide

theorem witness_RegisterAluResult :
    (start.executes .al ∧ FlagSource.shift ≠ .reserved ∧ ShiftType.asr ≠ .reserved ∧
      start.forbidsWrite .ph = false) ∧
    (user.executes .al ∧ FlagSource.alu ≠ .reserved ∧ ShiftType.lsl ≠ .reserved ∧
      user.forbidsWrite .sl = false) := by
  unfold State.executes; decide

theorem witness_RegisterTestFlags :
    user.executes .al ∧ FlagSource.alu ≠ .reserved ∧ ShiftType.rtr ≠ .reserved ∧
    user.platform.undocumented = .hardwarePattern := by
  unfold State.executes; decide

theorem witness_RegisterLoads :
    (user.executes .al ∧ FlagSource.alu ≠ .reserved ∧ user.forbidsWrite .sr = false) ∧
    (start.executes .al ∧ FlagSource.shift ≠ .reserved ∧ ShiftType.none = .none ∧
      start.forbidsWrite .ph = false) := by
  unfold State.executes; decide

theorem witness_ShiftMetaInstructions :
    (start.executes .al ∧ ShiftType.rtr ≠ .reserved ∧ start.forbidsWrite .ph = false) ∧
    (user.executes .al ∧ ShiftType.none ≠ .reserved ∧ user.forbidsWrite .r1 = false) := by
  unfold State.executes; decide

theorem witness_NoopOnlyAdvances :
    (start.tracing = false ∧ start.sr.getLsbD 13 = false) ∧ user.tracing = false ∧ user.sr.getLsbD 13 = false := by
  decide

/-- `STOR (#0, a), rS` at the last word of a segment with SR.A set, `STOR (#-1, a), rS` that wraps with SR.A clear,
and the register form with the offset -1 in `r2`. -/
theorem witness_StoreIndirect :
    (edge.executes .al ∧ Memory.wf edge.mem = true ∧ edge.staysInside (edge.advance.read (Pair.low .a)) 0 ∧
      edge.busError (addressOf (edge.advance.read (Pair.high .a)) (edge.advance.read (Pair.low .a) + 0)) = false) ∧
    (start.executes .al ∧ Memory.wf start.mem = true ∧
      start.staysInside (start.advance.read (Pair.low .a)) 0xFFFF ∧
      start.busError (addressOf (start.advance.read (Pair.high .a))
        (start.advance.read (Pair.low .a) + 0xFFFF)) = false) ∧
    (edge.executes .al ∧ Memory.wf edge.mem = true ∧ ShiftType.lsl ≠ .reserved ∧
      edge.staysInside (edge.advance.read (Pair.low .a)) (edge.advance.offsetWord ⟨.lit 1, .lsl⟩ (edge.advance.read .r2)) ∧
      edge.busError (addressOf (edge.advance.read (Pair.high .a))
        (edge.advance.read (Pair.low .a) + edge.advance.offsetWord ⟨.lit 1, .lsl⟩ (edge.advance.read .r2))) = false) ∧
    (edge.kindAt 0x00FFFF = .ram ∧ other.kindAt 0x120000 = .rom ∧ other.kindAt 0x13FFFF = .absent ∧
      other.kindAt 0x140000 = .ram) := by
  unfold State.executes State.staysInside; decide

/-- `STOR -(#1, a), rS` back to the last word, and the register form with -1 in `r2`. -/
theorem witness_StorePreDecrement :
    (edge.executes .al ∧ Memory.wf edge.mem = true ∧
      edge.staysInside (edge.advance.read (Pair.low .a)) 0xFFFF ∧
      edge.staysInside (edge.advance.read (Pair.low .a) - 1) 1 ∧
      edge.busError (addressOf (edge.advance.read (Pair.high .a))
        (edge.advance.read (Pair.low .a) - 1 + 1)) = false) ∧
    (edge.executes .al ∧ Memory.wf edge.mem = true ∧ ShiftType.rtl ≠ .reserved ∧
      edge.staysInside (edge.advance.read (Pair.low .a)) 0xFFFF ∧
      edge.staysInside (edge.advance.read (Pair.low .a) - 1) (edge.advance.offsetWord ⟨.lit 1, .rtl⟩ (edge.advance.read .r2)) ∧
      edge.busError (addressOf (edge.advance.read (Pair.high .a))
        (edge.advance.read (Pair.low .a) - 1 + edge.advance.offsetWord ⟨.lit 1, .rtl⟩ (edge.advance.read .r2))) = false) := by
  unfold State.executes State.staysInside; decide

theorem witness_LoadIndirect :
    (edge.executes .al ∧ edge.forbidsWrite .ah = false ∧
      edge.staysInside (edge.advance.read (Pair.low .a)) 0 ∧
      edge.busError (addressOf (edge.advance.read (Pair.high .a)) (edge.advance.read (Pair.low .a) + 0)) = false) ∧
    (edge.executes .al ∧ edge.forbidsWrite .sr = false ∧ ShiftType.asr ≠ .reserved ∧
      edge.staysInside (edge.advance.read (Pair.low .a)) (edge.advance.offsetWord ⟨.lit 1, .asr⟩ (edge.advance.read .r2)) ∧
      edge.busError (addressOf (edge.advance.read (Pair.high .a))
        (edge.advance.read (Pair.low .a) + edge.advance.offsetWord ⟨.lit 1, .asr⟩ (edge.advance.read .r2))) = false) := by
  unfold State.executes State.staysInside; decide

/-- `LOAD al, (#-1, a)+` with SR.A clear, where every sum wraps, and the register form in protected mode. -/
theorem witness_LoadPostIncrement :
    (start.executes .al ∧ start.forbidsWrite .al = false ∧
      start.staysInside (start.advance.read (Pair.low .a)) 0xFFFF ∧
      start.staysInside (start.advance.read (Pair.low .a)) 1 ∧
      start.busError (addressOf (start.advance.read (Pair.high .a))
        (start.advance.read (Pair.low .a) + 0xFFFF)) = false) ∧
    (user.executes .al ∧ user.forbidsWrite .r1 = false ∧ ShiftType.none ≠ .reserved ∧
      user.staysInside (user.advance.read (Pair.low .s)) (user.advance.offsetWord ⟨.lit 1, .none⟩ (user.advance.read .r2)) ∧
      user.staysInside (user.advance.read (Pair.low .s)) 1 ∧
      user.busError (addressOf (user.advance.read (Pair.high .s))
        (user.advance.read (Pair.low .s) + user.advance.offsetWord ⟨.lit 1, .none⟩ (user.advance.read .r2))) = false) := by
  unfold State.executes State.staysInside; decide

/-- Both clauses, on the two sides of the end of a segment. -/
theorem witness_AddressArithmetic :
    edge.staysInside 0xFFFE 1 ∧ ¬ edge.staysInside 0xFFFF 1 ∧ edge.staysInside 0 0 ∧ ¬ edge.staysInside 0 0xFFFF ∧
    start.staysInside 0xFFFF 1 := by
  unfold State.staysInside; decide

/-- A platform that refuses everything, `a` in the middle of a segment and at its ends. -/
theorem witness_DataBusFault :
    (condHolds .al (srFlags deaf.sr) = true ∧ deaf.staysInside (deaf.advance.read (Pair.low .a)) 0xFFFF ∧
      deaf.busError (addressOf (deaf.advance.read (Pair.high .a))
        (deaf.advance.read (Pair.low .a) + 0xFFFF)) = true ∧
      deaf.forbidsWrite .ah = false ∧ deaf.staysInside (deaf.advance.read (Pair.low .a)) 1) ∧
    (deaf.staysInside (deaf.advance.read (Pair.low .a) - 1) 0xFFFF ∧
      deaf.busError (addressOf (deaf.advance.read (Pair.high .a))
        (deaf.advance.read (Pair.low .a) - 1 + 0xFFFF)) = true) ∧
    (ShiftType.lsl ≠ .reserved ∧ deaf.staysInside (deaf.advance.read (Pair.low .a)) (deaf.advance.offsetWord ⟨.lit 1, .lsl⟩ (deaf.advance.read .r2)) ∧
      deaf.busError (addressOf (deaf.advance.read (Pair.high .a))
        (deaf.advance.read (Pair.low .a) + deaf.advance.offsetWord ⟨.lit 1, .lsl⟩ (deaf.advance.read .r2))) = true) ∧
    (deaf.staysInside (deaf.advance.read (Pair.low .a) - 1) (deaf.advance.offsetWord ⟨.lit 1, .lsl⟩ (deaf.advance.read .r2)) ∧
      deaf.busError (addressOf (deaf.advance.read (Pair.high .a))
        (deaf.advance.read (Pair.low .a) - 1 + deaf.advance.offsetWord ⟨.lit 1, .lsl⟩ (deaf.advance.read .r2))) = true) := by
  unfold State.staysInside; decide

/-- Every clause with SR.A set, the last three those of the register forms, where `r2` is -1: an offset, a decrement and an increment past the end of a segment. -/
theorem witness_SegmentOverflowFault :
    condHolds .al (srFlags edge.sr) = true ∧ edge.isProtected = false ∧ edge.forbidsWrite .ah = false ∧
    ¬ edge.staysInside (edge.advance.read (Pair.low .a)) 1 ∧
    ¬ edge.staysInside (edge.advance.read (Pair.low .s)) 0xFFFF ∧
    ¬ edge.staysInside (edge.advance.read (Pair.low .a) - 1) 2 ∧ Reg.ll = Pair.low .l ∧
    ¬ edge.staysInside (edge.advance.read (Pair.low .s))
      (edge.advance.offsetWord ⟨.lit 0, .rtr⟩ (edge.advance.read .r2)) ∧
    ¬ edge.staysInside (edge.advance.read (Pair.low .s)) (edge.advance.read .r2) ∧ ShiftType.rtr ≠ .reserved := by
  unfold State.staysInside; decide

theorem witness_LoadEffectiveAddress :
    edge.isProtected = false ∧ edge.executes .al ∧ Reg.ph = Pair.high .p ∧ Reg.ll = Pair.low .l ∧
    edge.staysInside (edge.advance.read (Pair.low .a)) 0 ∧
    edge.staysInside (edge.advance.read (Pair.low .a)) (edge.advance.read .r2) := by
  unfold State.executes State.staysInside; decide

/-- In protected mode a branch to its own address, and with SR.A set one to the last word. -/
theorem witness_BranchTarget :
    (user.executes .al ∧ user.staysInside (user.advance.read (Pair.low .p)) 0xFFFE ∧
      user.staysInside (user.advance.read (Pair.low .p)) (user.advance.read .r2)) ∧
    (edge.executes .al ∧ edge.staysInside (edge.advance.read (Pair.low .a)) 0 ∧
      edge.staysInside (edge.advance.read (Pair.low .a)) (edge.advance.read .r2)) := by
  unfold State.executes State.staysInside; decide

theorem witness_LongSubroutineCall :
    edge.isProtected = false ∧ edge.executes .al ∧ edge.staysInside (edge.advance.read (Pair.low .l)) 0 ∧
    edge.staysInside (edge.advance.read (Pair.low .a)) (edge.advance.read .r2) := by
  unfold State.executes State.staysInside; decide

theorem witness_BranchToSubroutine :
    user.executes .al ∧ user.staysInside (user.advance.read (Pair.low .l)) 0x8000 ∧
    user.staysInside (user.advance.read (Pair.low .l)) (user.advance.read .r2) := by
  unfold State.executes State.staysInside; decide

/-- The first and the last vector of EXCP, from protected mode. -/
theorem witness_SoftwareException :
    user.executes .al ∧ user.level = 0 ∧ (0x60 : BitVec 8) ≤ 0x60 ∧ user.vectorReadable 0x60 ∧
    (0x60 : BitVec 8) ≤ 0xFF ∧ user.vectorReadable 0xFF := by
  unfold State.executes State.vectorReadable; decide

/-- Supervisor mode, at level 1 and at level 7. -/
theorem witness_WaitReturnReset :
    start.executes .al ∧ start.isProtected = false ∧ start.vectorReadable 0 ∧
    ({ start with level := 1 } : State).executes .al ∧ (1 : Fin 8) = (0 : Fin 7).succ ∧
    ({ start with level := 7 } : State).executes .al ∧ (7 : Fin 8) = (6 : Fin 7).succ := by
  unfold State.executes State.vectorReadable; decide

/-- LR0 with nothing selected, LR7 with both halves. -/
theorem witness_LinkRegisterTransfer :
    start.executes .al ∧ start.isProtected = false ∧
    ((0x00 : BitVec 8).getLsbD 6 = false ∧ (0x00 : BitVec 8).getLsbD 7 = false ∧
      (0x00 : BitVec 8).toNat % 16 = (0 : Fin 8).val) ∧
    ((0x37 : BitVec 8).getLsbD 6 = false ∧ (0x37 : BitVec 8).getLsbD 7 = false ∧
      (0x37 : BitVec 8).toNat % 16 = (7 : Fin 8).val) := by
  unfold State.executes; decide

/-- A state whose `r3` holds any call value, the two extensions of a short call value, a call value for each of the
six named operations, and a WAIT that completes. -/
theorem witness_CallValueDecides :
    (∀ v : Word, ({ start with gen := { GenRegs.zero with r3 := v } } : State).advance.read .r3 = v) ∧
    start.extend8 0xFF = 0x00FF ∧ other.extend8 0x80 = 0xFF80 ∧
    ((0x1180 : Word) = (0x11 : BitVec 8) ++ (0x80 : BitVec 8) ∧
      (0x1900 : Word) = (0x19 : BitVec 8) ++ (0 : BitVec 8) ∧
      (0x1A00 : Word) = (0x1A : BitVec 8) ++ (0 : BitVec 8) ∧
      (0x1B00 : Word) = (0x1B : BitVec 8) ++ (0 : BitVec 8) ∧
      (0x1C36 : Word) = (0x1C : BitVec 8) ++ (0x36 : BitVec 8) ∧
      (0x1D36 : Word) = (0x1D : BitVec 8) ++ (0x36 : BitVec 8)) ∧
    start.executes .al ∧ start.isProtected = false ∧ (0x1900 : Word).extractLsb' 8 8 = 0x19 := by
  unfold State.executes; exact ⟨fun _ => rfl, by decide, by decide, by decide, by decide, by decide, by decide⟩

/-- Coprocessors 2 and 15, opcodes 2 and 8 of the exception unit, and opcode 7 in protected mode. -/
theorem witness_InvalidOpcodeFault :
    condHolds .al (srFlags start.sr) = true ∧ start.isProtected = false ∧
    2 ≤ (0x2000 : Word).extractLsb' 12 4 ∧ 2 ≤ (0xFF00 : Word).extractLsb' 12 4 ∧
    ((0x1200 : Word).extractLsb' 12 4 = 1 ∧ 2 ≤ (0x1200 : Word).extractLsb' 8 4 ∧
      (0x1200 : Word).extractLsb' 8 4 ≤ 8) ∧
    ((0x1800 : Word).extractLsb' 12 4 = 1 ∧ 2 ≤ (0x1800 : Word).extractLsb' 8 4 ∧
      (0x1800 : Word).extractLsb' 8 4 ≤ 8) ∧
    condHolds .al (srFlags user.sr) = true ∧ (0x17FF : Word).extractLsb' 8 4 < 8 ∧
    (0x2000 : Word).extractLsb' 12 4 ∉ start.platform.optionalUnits ∧
    (0x3000 : Word).extractLsb' 12 4 ∉ other.platform.optionalUnits := by decide

theorem witness_PrivilegeViolationFault :
    user.isProtected = true ∧ condHolds .al (srFlags user.sr) = true ∧ FlagSource.keep ≠ .reserved ∧
    ShiftType.rtr ≠ .reserved ∧ ShiftType.none = .none ∧ Reg.isHigh .lh = true ∧ Reg.isHigh .ph = true ∧
    8 ≤ (0x2800 : Word).extractLsb' 8 4 ∧
    8 ≤ (({ user with gen := { GenRegs.zero with r3 := 0xFFFF } } : State).advance.read .r3).extractLsb' 8 4 ∧
    (∃ d, Reg.ah = Pair.high d) ∧ (∃ d, Reg.pl = Pair.low d) ∧ (0x5F : BitVec 8) < 0x60 :=
  ⟨by decide, by decide, by decide, by decide, by decide, by decide, by decide, by decide, by decide,
    ⟨.a, rfl⟩, ⟨.p, rfl⟩, by decide⟩

theorem witness_ReservedFormsRefused :
    condHolds .al (srFlags start.sr) = true ∧ FlagSource.reserved = .reserved ∧
    ShiftType.reserved = .reserved ∧ ShiftType.lsl ≠ .none ∧
    (∀ d, Reg.sr ≠ Pair.high d ∧ Reg.sr ≠ Pair.low d) ∧ (∀ d, Reg.r7 ≠ Pair.high d ∧ Reg.r7 ≠ Pair.low d) ∧
    start.platform.undocumented = .hardwarePattern ∧ other.platform.undocumented = .refuse ∧
    FlagSource.reserved = .reserved ∧ ShiftType.rtr ≠ .reserved ∧ ShiftType.none = .none ∧
    (start.extend8 0xFF).extractLsb' 12 4 = 0 ∧ (other.extend8 0x7F).extractLsb' 12 4 = 0 :=
  ⟨by decide, rfl, rfl, by decide, fun d => by cases d <;> decide, fun d => by cases d <;> decide, by decide, by decide, rfl, by decide, rfl, by decide, by decide⟩

/-- EXCP inside a handler and below 0x60, RETE at level 0, the three ways to a bad link parameter, coprocessor 0 and
the internal operations. -/
theorem witness_UnitCallsRefused :
    condHolds .al (srFlags start.sr) = true ∧ start.isProtected = false ∧ start.level = 0 ∧
    ((0x60 : BitVec 8) ≤ 0x60 ∧ ({ start with level := 1 } : State).level ≠ 0) ∧ (0x5F : BitVec 8) < 0x60 ∧
    (0x08 : BitVec 8).getLsbD 3 = true ∧ (0x40 : BitVec 8).getLsbD 6 = true ∧ (0x80 : BitVec 8).getLsbD 7 = true ∧
    (user.isProtected = true ∧ (0x0700 : Word).extractLsb' 8 4 < 8 ∧ (0x0700 : Word).extractLsb' 12 4 = 0) ∧
    ((0x1F00 : Word).extractLsb' 12 4 = 1 ∧ (0x1F00 : Word).extractLsb' 8 4 = 0xF) ∧
    (0x1E00 : Word).extractLsb' 8 4 = 0xE ∧ (0x1000 : Word).extractLsb' 8 4 = 0 ∧
    (2 ≤ (0x2000 : Word).extractLsb' 12 4 ∧ (0x2000 : Word).extractLsb' 12 4 ∈ other.platform.optionalUnits) := by decide

/-- A condition that fails, on an instruction that protected mode forbids and on one that is always refused. -/
theorem witness_ConditionDecides :
    (condHolds (Instr.cond (.rset ⟨.sr, 0, .keep, .nv⟩)) (srFlags user.sr) = false ∧ user.tracing = false) ∧
    (condHolds (Instr.cond (.copiS ⟨.sr, 0, ⟨.lit 0, .none⟩, .keep, .eq⟩)) (srFlags start.sr) = false ∧
      start.tracing = false) := by decide

theorem witness_TracedInstructionEndsInHandler :
    traced.tracing = true ∧ exec .noop traced = .next (nextOf (exec .noop traced)) :=
  ⟨by decide, next_nextOf (by decide)⟩

theorem witness_TraceFaultTaken :
    (condHolds .al (srFlags traced.sr) = true ∧ traced.tracing = true ∧ FlagSource.alu ≠ .reserved ∧
      traced.forbidsWrite .pl = false) ∧
    (condHolds (Instr.cond (.copiS ⟨.sr, 0, ⟨.lit 0, .none⟩, .keep, .eq⟩)) (srFlags traced.sr) = false ∧
      traced.tracing = true) := by decide

theorem witness_EnvironmentUntouched :
    exec (.storInd ⟨.r1, 0, .a, .al⟩) start = .next (nextOf (exec (.storInd ⟨.r1, 0, .a, .al⟩) start)) :=
  next_nextOf (by decide)

theorem witness_FaultNumbers : start.level ≠ 7 ∧ ({ start with level := 7 } : State).level = 7 := by decide

/-- A bus fault and a trace fault, at level 0 and at level 6. -/
theorem witness_FaultEntry :
    (start.level ≠ 7 ∧ start.vectorReadable (BitVec.ofNat 8 (start.faultCode .bus).toNat)) ∧
    (({ traced with level := 6 } : State).level ≠ 7 ∧
      ({ traced with level := 6 } : State).vectorReadable
        (BitVec.ofNat 8 (({ traced with level := 6 } : State).faultCode .instructionTrace).toNat)) := by
  unfold State.vectorReadable; exact ⟨by decide, by decide, rfl, rfl⟩

theorem witness_DoubleFault :
    ({ start with level := 7 } : State).level = 7 ∧ ({ start with level := 7 } : State).vectorReadable 6 := by
  unfold State.vectorReadable; decide

theorem witness_VectorReadStops :
    ¬ deaf.vectorReadable (BitVec.ofNat 8 (deaf.faultCode .privilegeViolation).toNat) := by
  unfold State.vectorReadable; decide

/-- `ADDI r1, #1` in the last two words of the segment, with SR.A clear. -/
def lastWords : State := { start with pl := 0xFFFE, mem := [(0x1FFFD, 0x40), (0x1FFFF, 0x50)] }

theorem witness_StepRunsDecodedInstruction :
    let r := lastWords.withTick 1
    let u := r.latch Lines.none
    lastWords.takePins = (⟨none, Lines.none⟩, r) ∧ r.conflict Lines.none = false ∧
    u.candidate = none ∧ u.waiting = false ∧ u.pl.getLsbD 0 = false ∧
    u.busError (addressOf u.ph u.pl) = false ∧ u.busError (addressOf u.ph (u.pl + 1)) = false ∧
    ¬ (u.pl = 0xFFFE ∧ u.trapsOverflow = true) ∧ (Instr.addi ⟨.r1, 1, .alu, .al⟩).wellFormed = true ∧
    decode [u.busRead .fetch (addressOf u.ph u.pl), u.busRead .fetch (addressOf u.ph (u.pl + 1))]
      = .ok (.addi ⟨.r1, 1, .alu, .al⟩, []) := by decide

/-- The premises of `FetchFaults` in a state with nothing at the pins. -/
def quietFetch (s : State) : Bool :=
  let r := s.withTick (s.tick + 1)
  decide (s.takePins = (⟨none, Lines.none⟩, r)) && !(r.conflict Lines.none) &&
    decide ((r.latch Lines.none).candidate = none) && !(r.latch Lines.none).waiting

/-- The premises, and one state for each of the four faults: an odd address, a refused high word, a refused low
word, and the last instruction of a segment with SR.A set. -/
theorem witness_FetchFaults :
    quietFetch { start with pl := 0x0401 } = true ∧ quietFetch deaf = true ∧
    quietFetch { start with platform := { Platform.default with busErrors := [⟨0x401, 0x401⟩] } } = true ∧
    quietFetch { edge with pl := 0xFFFE } = true ∧
    (0x0401 : Word).getLsbD 0 = true ∧ (0x0400 : Word).getLsbD 0 = false ∧ (0xFFFE : Word).getLsbD 0 = false ∧
    deaf.busError (addressOf 0 0x0400) = true ∧
    ({ start with platform := { Platform.default with busErrors := [⟨0x401, 0x401⟩] } } : State).busError (addressOf 0 0x0400) = false ∧
    ({ start with platform := { Platform.default with busErrors := [⟨0x401, 0x401⟩] } } : State).busError (addressOf 0 0x0401) = true ∧
    edge.busError (addressOf 0 0xFFFF) = false ∧ edge.trapsOverflow = true := by decide

/-- A disabled line 2 is asserted. -/
theorem witness_WaitingStepIdles :
    let lines : Lines := ⟨false, true, false, false, false⟩
    let r : State := { start with tick := 1, waiting := true }
    ({ r with tick := 0, inputs := [⟨none, lines⟩] } : State).takePins = (⟨none, lines⟩, r) ∧ r.conflict lines = false ∧
    (r.latch lines).candidate = none ∧ (r.latch lines).waiting = true := by decide

/-- Each case of the equivalence: kept, accepted, refused by its enable bit, and the conflict's own assertion. -/
theorem witness_LineAcceptance :
    ({ start with pending := ⟨true, false, false, false, false⟩ } : State).pending.get .one = true ∧
    (Lines.get ⟨true, false, false, false, true⟩ .five = true ∧ start.lineEnabled .five = true) ∧
    start.lineEnabled .one = false ∧
    (({ start with sr := 0x0200, level := 6 } : State).lineEnabled .one = true ∧
      ({ start with sr := 0x0200, level := 6 } : State).level = 6) := by decide

/-- Lines 1 and 5 latched: line 1 is entered at level 0, and nothing at level 7. -/
theorem witness_HighestLineWins :
    ({ start with sr := 0x1E00, pending := ⟨true, false, false, false, true⟩ } : State).candidate = some .one ∧
    ({ start with pending := ⟨true, false, false, false, true⟩ } : State).candidate = some .five ∧
    ({ start with level := 7 } : State).level = 7 ∧ start.candidate = none := by decide

theorem witness_HardwareExceptionTaken :
    let lines : Lines := ⟨true, false, false, true, false⟩
    let r : State := { start with tick := 1, sr := 0x1F00 }
    ({ r with tick := 0, inputs := [⟨none, lines⟩] } : State).takePins = (⟨none, lines⟩, r) ∧ r.conflict lines = false ∧
    (r.latch lines).candidate = some .one ∧ (r.latch lines).vectorReadable (Line.vector .one) := by
  unfold State.vectorReadable; decide

theorem witness_LevelFiveConflict :
    let lines : Lines := ⟨true, false, false, false, false⟩
    let r : State := { start with tick := 1, sr := 0x0200, level := 6 }
    ({ r with tick := 0, inputs := [⟨none, lines⟩] } : State).takePins = (⟨none, lines⟩, r) ∧ lines.one = true ∧
    r.sr.getLsbD 9 = true ∧ r.level = 6 := by decide

theorem witness_SegmentsFixedInProtectedMode :
    user.isProtected = true ∧ step user = .next (nextOf (step user)) ∧
    (nextOf (step user)).isProtected = true :=
  ⟨by decide, next_nextOf (by decide), by decide⟩

/-- `STOR (#0, a), r1` in protected mode, at 0x123000. -/
def storing : State :=
  ({ user with gen := { GenRegs.zero with r1 := 0xCAFE, ah := 0x0012, al := 0x3000 } } : State).withFetchWord
    32 0x40400010

theorem witness_StoresConfinedToSegments :
    storing.Inv ∧ storing.isProtected = true ∧ step storing = .next (nextOf (step storing)) ∧
    (nextOf (step storing)).word 0x123000 ≠ storing.word 0x123000 :=
  ⟨⟨by decide, by decide, by decide, fun p h => by cases h⟩, by decide, next_nextOf (by decide), by decide⟩

/-- `EXCP #0x80` in protected mode. -/
def trapping : State := user.withFetchWord 32 0x3C046000

theorem witness_ProtectedModeLeftByException :
    trapping.isProtected = true ∧ step trapping = .next (nextOf (step trapping)) ∧
    (nextOf (step trapping)).isProtected = false :=
  ⟨by decide, next_nextOf (by decide), by decide⟩

theorem witness_TrapThenReturn :
    let t := nextOf (exec (.excp ⟨.sr, 0x80, .keep, .al⟩) user)
    user.executes .al ∧ user.sr.getLsbD 13 = false ∧ (0x60 : BitVec 8) ≤ 0x80 ∧
    exec (.excp ⟨.sr, 0x80, .keep, .al⟩) user = .next t ∧ condHolds .al (srFlags t.sr) = true ∧
    exec (.rete ⟨.sr, 0, .keep, .al⟩) t = .next (nextOf (exec (.rete ⟨.sr, 0, .keep, .al⟩) t)) :=
  ⟨by unfold State.executes; decide, by decide, by decide, next_nextOf (by decide), by decide,
    next_nextOf (by decide)⟩

end Sys2Proof.Tests
end

section
/-! The shifter by 1 to 15 positions (rules R133 to R136): each shift of `shiftBy` is read as multiplication or
division by a power of two. -/

namespace Sys2Proof.Machine

/-- A count the spec covers never reaches the open value of log entry 9. -/
theorem shiftOutput_eq_shiftBy {n : Word} (kind : ShiftType) (v : Word) (c : Bool) (h : n.toNat ≤ 15) :
    shiftOutput kind v n c = shiftBy kind v n.toNat c :=
  if_pos (.inl h)

section
variable {n : Nat} (v : Word) (c : Bool)

theorem shiftBy_asl_eq_lsl : shiftBy .asl v n c = shiftBy .lsl v n c := rfl

theorem shiftBy_lsl_of_pos (h : 1 ≤ n) :
    shiftBy .lsl v n c = some ⟨BitVec.ofNat 16 (v.toNat * 2 ^ n), some (v.getLsbD (16 - n))⟩ := by
  have product : v <<< n = BitVec.ofNat 16 (v.toNat * 2 ^ n) :=
    BitVec.eq_of_toNat_eq (by rw [BitVec.toNat_shiftLeft, BitVec.toNat_ofNat, Nat.shiftLeft_eq])
  rw [shiftBy, if_neg (Nat.ne_of_gt h), product]

theorem shiftBy_lsr_of_pos (h : 1 ≤ n) :
    shiftBy .lsr v n c = some ⟨BitVec.ofNat 16 (v.toNat / 2 ^ n), some (v.getLsbD (n - 1))⟩ := by
  have quotient : v >>> n = BitVec.ofNat 16 (v.toNat / 2 ^ n) := by
    rw [← Nat.shiftRight_eq_div_pow, ← BitVec.toNat_ushiftRight, BitVec.ofNat_toNat, BitVec.setWidth_eq]
  rw [shiftBy, if_neg (Nat.ne_of_gt h), quotient]

/-- The quotient of `Int` by a positive divisor is rounded down, as rule R136 asks. -/
theorem shiftBy_asr_of_pos (h : 1 ≤ n) :
    shiftBy .asr v n c = some ⟨BitVec.ofInt 16 (v.toInt / 2 ^ n), some (v.getLsbD (n - 1))⟩ := by
  have quotient : v.sshiftRight n = BitVec.ofInt 16 (v.toInt / 2 ^ n) := by
    rw [BitVec.sshiftRight, Int.shiftRight_eq_div_pow, Nat.cast_pow, Nat.cast_ofNat]
  rw [shiftBy, if_neg (Nat.ne_of_gt h), quotient]

end

/-- Settles O12: a count of 1 to 15 reaches `shiftBy`, whose four shifts are the product and the quotients. -/
theorem shiftsByCount : Obligations.ShiftsByCount := by
  intro v n c hpos hle
  simp only [shiftOutput_eq_shiftBy _ v c hle]
  exact ⟨shiftBy_lsl_of_pos v c hpos,
    (shiftBy_asl_eq_lsl v c).trans (shiftBy_lsl_of_pos v c hpos),
    shiftBy_lsr_of_pos v c hpos,
    shiftBy_asr_of_pos v c hpos⟩

end Sys2Proof.Machine
end

section
/-! The seven ALU functions that produce flags (rules R171 to R175): one rule per component of `addFlags`, `subFlags`
and `logicFlags`. The signed readings go through the result's value in two's complement. -/

namespace Sys2Proof.Machine

theorem signedOverflow_iff (t : Int) : signedOverflow t = true ↔ t < -32768 ∨ 32767 < t :=
  decide_eq_true_iff

theorem msb_eq_getLsbD_fifteen (w : Word) : w.msb = w.getLsbD 15 := BitVec.msb_eq_getLsbD_last w

/-- Bit 15 of a word is its sign. -/
theorem getLsbD_fifteen_eq_decide_neg (w : Word) : w.getLsbD 15 = decide (w.toInt < 0) :=
  (msb_eq_getLsbD_fifteen w).symm.trans BitVec.msb_eq_toInt

/-! Addition -/

section
variable (a b : Word) (cin : Bool)

theorem addFlags_result_toNat : (addFlags a b cin).1.toNat = (a.toNat + b.toNat + cin.toNat) % 2 ^ 16 :=
  BitVec.toNat_ofNat _ 16

/-- The signed sum wraps modulo 2^16 as the unsigned one does. -/
theorem addFlags_result_toInt : (addFlags a b cin).1.toInt = (a.toInt + b.toInt + cin.toNat).bmod (2 ^ 16) := by
  rw [addFlags, BitVec.toInt_ofNat', BitVec.toInt_eq_toNat_bmod a, BitVec.toInt_eq_toNat_bmod b, Int.add_assoc,
    Int.bmod_add_bmod, Int.add_left_comm, Int.bmod_add_bmod, Int.add_left_comm, ← Int.add_assoc, Nat.cast_add,
    Nat.cast_add]

theorem addFlags_z_iff : (addFlags a b cin).2.z = true ↔ (addFlags a b cin).1 = 0 := beq_iff_eq

theorem addFlags_n : (addFlags a b cin).2.n = (addFlags a b cin).1.getLsbD 15 := msb_eq_getLsbD_fifteen _

theorem addFlags_c_iff : (addFlags a b cin).2.c = true ↔ 0xFFFF < a.toNat + b.toNat + cin.toNat :=
  decide_eq_true_iff

theorem addFlags_v_iff : (addFlags a b cin).2.v = true ↔
    a.toInt + b.toInt + cin.toNat < -32768 ∨ 32767 < a.toInt + b.toInt + cin.toNat :=
  signedOverflow_iff _

/-- Rule R172: the wrapped sum differs from the exact one by 2^16 at most, so an overflow shows in the signs. -/
theorem addFlags_v_iff_signs : (addFlags a b cin).2.v = true ↔
    a.getLsbD 15 = b.getLsbD 15 ∧ (addFlags a b cin).1.getLsbD 15 ≠ a.getLsbD 15 := by
  have wrapped := addFlags_result_toInt a b cin
  have ha := And.intro (BitVec.le_toInt a) (BitVec.toInt_lt (x := a))
  have hb := And.intro (BitVec.le_toInt b) (BitVec.toInt_lt (x := b))
  have hcin := Bool.toNat_le cin
  rw [addFlags_v_iff]
  simp only [getLsbD_fifteen_eq_decide_neg, decide_eq_decide, ne_eq]
  generalize (addFlags a b cin).1.toInt = r at wrapped ⊢
  rw [Int.bmod_def] at wrapped
  split at wrapped <;> omega

end

/-! Subtraction -/

section
variable (a b : Word) (bin : Bool)

theorem subFlags_result_toNat :
    ((subFlags a b bin).1.toNat : Int) = ((a.toNat : Int) - b.toNat - bin.toNat) % 2 ^ 16 := by
  rw [subFlags, BitVec.toNat_ofInt, Int.toNat_of_nonneg (Int.emod_nonneg _ (by decide)), Nat.cast_pow,
    Nat.cast_ofNat]

theorem subFlags_z_iff : (subFlags a b bin).2.z = true ↔ (subFlags a b bin).1 = 0 := beq_iff_eq

theorem subFlags_n : (subFlags a b bin).2.n = (subFlags a b bin).1.getLsbD 15 := msb_eq_getLsbD_fifteen _

/-- Rule R174: C is set when nothing is borrowed. -/
theorem subFlags_c_iff : (subFlags a b bin).2.c = true ↔ b.toNat + bin.toNat ≤ a.toNat := by
  rw [subFlags, decide_eq_true_iff]
  omega

theorem subFlags_v_iff : (subFlags a b bin).2.v = true ↔
    a.toInt - b.toInt - bin.toNat < -32768 ∨ 32767 < a.toInt - b.toInt - bin.toNat :=
  signedOverflow_iff _

end

/-! Logic -/

theorem logicFlags_z_iff (res : Word) : (logicFlags res).2.z = true ↔ res = 0 := beq_iff_eq

theorem logicFlags_n (res : Word) : (logicFlags res).2.n = res.getLsbD 15 := msb_eq_getLsbD_fifteen _

/-! Each function of the ALU is one of the three, with the carry or the borrow it takes in. -/

theorem carryIn_toNat (c : Bool) : c.toNat = if c then 1 else 0 := Bool.cond_eq_ite c 1 0

theorem borrowIn_toNat (c : Bool) : (!c).toNat = if c then 0 else 1 := by cases c <;> rfl

/-- Settles O11: the component rules of addition, subtraction and logic, at the carry or borrow taken in. -/
theorem aluFunctions : Obligations.AluFunctions := by
  intro a b c signed sum difference logic
  have add (cin : Bool) : sum (addFlags a b cin) cin.toNat :=
    ⟨addFlags_result_toNat a b cin, ⟨addFlags_z_iff a b cin, addFlags_n a b cin, addFlags_v_iff a b cin⟩,
      addFlags_c_iff a b cin, addFlags_v_iff_signs a b cin⟩
  have sub (bin : Bool) : difference (subFlags a b bin) bin.toNat :=
    ⟨subFlags_result_toNat a b bin, ⟨subFlags_z_iff a b bin, subFlags_n a b bin, subFlags_v_iff a b bin⟩,
      subFlags_c_iff a b bin⟩
  have bitwise (res : Word) : logic (logicFlags res) res :=
    ⟨rfl, logicFlags_z_iff res, logicFlags_n res, rfl, rfl⟩
  rw [← carryIn_toNat, ← borrowIn_toNat]
  exact ⟨add false, add c, sub false, sub !c, bitwise (a &&& b), bitwise (a ||| b), bitwise (a ^^^ b)⟩

end Sys2Proof.Machine
end

section
/-! Encoding and decoding (rules R90 to R107): every field round-trips, then every format, then every instruction. -/

namespace Sys2Proof

/-! The codes of the small fields are bijections. -/

@[simp] theorem Reg.ofCode_code (r : Reg) : Reg.ofCode r.code = r := by cases r <;> rfl

@[simp] theorem Reg.code_ofCode : ∀ c : BitVec 4, (Reg.ofCode c).code = c := by decide

@[simp] theorem Pair.ofCode_code (k : Pair) : Pair.ofCode k.code = k := by cases k <;> rfl

@[simp] theorem Pair.code_ofCode : ∀ c : BitVec 2, (Pair.ofCode c).code = c := by decide

@[simp] theorem Cond.ofCode_code (c : Cond) : Cond.ofCode c.code = c := by cases c <;> rfl

@[simp] theorem Cond.code_ofCode : ∀ c : BitVec 4, (Cond.ofCode c).code = c := by decide

@[simp] theorem ShiftType.ofCode_code (k : ShiftType) : ShiftType.ofCode k.code = k := by cases k <;> rfl

@[simp] theorem ShiftType.code_ofCode : ∀ c : BitVec 3, (ShiftType.ofCode c).code = c := by decide

@[simp] theorem FlagSource.ofCode_code (a : FlagSource) : FlagSource.ofCode a.code = a := by cases a <;> rfl

@[simp] theorem FlagSource.code_ofCode : ∀ c : BitVec 2, (FlagSource.ofCode c).code = c := by decide

/-- The three fields of the shift postamble, taken back out of its eight bits. -/
theorem shiftBits_fields (so : BitVec 1) (st : BitVec 3) (sa : BitVec 4) :
    (so ++ st ++ sa)[7] = so[0] ∧ (so ++ st ++ sa).extractLsb' 4 3 = st ∧
      (so ++ st ++ sa).extractLsb' 0 4 = sa := by
  refine ⟨?_, ?_, ?_⟩ <;> grind

@[simp] theorem Shift.ofCode_code (s : Shift) : Shift.ofCode s.code = s := by
  obtain ⟨n | r, kind⟩ := s
  · obtain ⟨hso, hst, hsa⟩ := shiftBits_fields 0#1 kind.code n
    simp [Shift.code, Shift.ofCode, hso, hst, hsa]
  · obtain ⟨hso, hst, hsa⟩ := shiftBits_fields 1#1 kind.code r.code
    simp [Shift.code, Shift.ofCode, hso, hst, hsa]

@[simp] theorem Shift.code_ofCode : ∀ c : BitVec 8, (Shift.ofCode c).code = c := by decide

/-! The three formats: the opcode and the fields of a word that was put together, and a word put together again -/

section
variable {α : Type} (afCode : α → BitVec 2) (op : BitVec 6)

theorem opcodeOf_immWord (f : ImmForm α) : opcodeOf (immWord afCode op f) = op := by
  simp only [opcodeOf, immWord]; grind

theorem opcodeOf_shortWord (f : ShortForm) : opcodeOf (shortWord op f) = op := by
  simp only [opcodeOf, shortWord]; grind

theorem opcodeOf_regWord (f : RegForm α) : opcodeOf (regWord afCode op f) = op := by
  simp only [opcodeOf, regWord]; grind

/-- The fields of a word in the immediate format. -/
theorem immBits_fields (reg : BitVec 4) (imm : Word) (af : BitVec 2) (cond : BitVec 4) :
    let w := op ++ reg ++ imm ++ af ++ cond
    w.extractLsb' 22 4 = reg ∧ w.extractLsb' 6 16 = imm ∧ w.extractLsb' 4 2 = af ∧ w.extractLsb' 0 4 = cond := by
  refine ⟨?_, ?_, ?_, ?_⟩ <;> grind

theorem immFields_immWord {afOf : BitVec 2 → α} (h : ∀ a, afOf (afCode a) = a) (f : ImmForm α) :
    immFields afOf (immWord afCode op f) = f := by
  obtain ⟨hreg, himm, haf, hcond⟩ := immBits_fields op f.reg.code f.imm (afCode f.af) f.cond.code
  simp [immFields, immWord, hreg, himm, haf, hcond, h]

/-- The fields of a word in the short immediate format. -/
theorem shortBits_fields (reg : BitVec 4) (imm shift : BitVec 8) (af : BitVec 2) (cond : BitVec 4) :
    let w := op ++ reg ++ imm ++ shift ++ af ++ cond
    w.extractLsb' 22 4 = reg ∧ w.extractLsb' 14 8 = imm ∧ w.extractLsb' 6 8 = shift ∧ w.extractLsb' 4 2 = af ∧
      w.extractLsb' 0 4 = cond := by
  refine ⟨?_, ?_, ?_, ?_, ?_⟩ <;> grind

theorem shortFields_shortWord (f : ShortForm) : shortFields (shortWord op f) = f := by
  obtain ⟨hreg, himm, hshift, haf, hcond⟩ := shortBits_fields op f.reg.code f.imm f.shift.code f.af.code f.cond.code
  simp [shortFields, shortWord, hreg, himm, hshift, haf, hcond]

/-- The fields of a word in the register format. -/
theorem regBits_fields (r1 r2 r3 : BitVec 4) (shift : BitVec 8) (af : BitVec 2) (cond : BitVec 4) :
    let w := op ++ r1 ++ r2 ++ r3 ++ shift ++ af ++ cond
    w.extractLsb' 22 4 = r1 ∧ w.extractLsb' 18 4 = r2 ∧ w.extractLsb' 14 4 = r3 ∧ w.extractLsb' 6 8 = shift ∧
      w.extractLsb' 4 2 = af ∧ w.extractLsb' 0 4 = cond := by
  refine ⟨?_, ?_, ?_, ?_, ?_, ?_⟩ <;> grind

theorem regFields_regWord {afOf : BitVec 2 → α} (h : ∀ a, afOf (afCode a) = a) (f : RegForm α) :
    regFields afOf (regWord afCode op f) = f := by
  obtain ⟨hr1, hr2, hr3, hshift, haf, hcond⟩ :=
    regBits_fields op f.r1.code f.r2.code f.r3.code f.shift.code (afCode f.af) f.cond.code
  simp [regFields, regWord, hr1, hr2, hr3, hshift, haf, hcond, h]

theorem aluImm_immWord (f : ImmForm FlagSource) : aluImm (immWord FlagSource.code op f) = f :=
  immFields_immWord _ op FlagSource.ofCode_code f

theorem pairImm_immWord (f : ImmForm Pair) : pairImm (immWord Pair.code op f) = f :=
  immFields_immWord _ op Pair.ofCode_code f

theorem aluReg_regWord (f : RegForm FlagSource) : aluReg (regWord FlagSource.code op f) = f :=
  regFields_regWord _ op FlagSource.ofCode_code f

theorem pairReg_regWord (f : RegForm Pair) : pairReg (regWord Pair.code op f) = f :=
  regFields_regWord _ op Pair.ofCode_code f

end

section
variable {α : Type} {w : Long} {op : BitVec 6}

theorem immWord_immFields {afCode : α → BitVec 2} {afOf : BitVec 2 → α} (haf : ∀ c, afCode (afOf c) = c)
    (h : (opcodeOf w).toNat = op.toNat) : immWord afCode op (immFields afOf w) = w := by
  obtain rfl := BitVec.eq_of_toNat_eq h
  simp only [immWord, immFields, haf, Reg.code_ofCode, Cond.code_ofCode, opcodeOf]
  grind

theorem shortWord_shortFields (h : (opcodeOf w).toNat = op.toNat) : shortWord op (shortFields w) = w := by
  obtain rfl := BitVec.eq_of_toNat_eq h
  simp only [shortWord, shortFields, FlagSource.code_ofCode, Shift.code_ofCode, Reg.code_ofCode, Cond.code_ofCode,
    opcodeOf]
  grind

theorem regWord_regFields {afCode : α → BitVec 2} {afOf : BitVec 2 → α} (haf : ∀ c, afCode (afOf c) = c)
    (h : (opcodeOf w).toNat = op.toNat) : regWord afCode op (regFields afOf w) = w := by
  obtain rfl := BitVec.eq_of_toNat_eq h
  simp only [regWord, regFields, haf, Shift.code_ofCode, Reg.code_ofCode, Cond.code_ofCode, opcodeOf]
  grind

theorem immWord_aluImm (h : (opcodeOf w).toNat = op.toNat) : immWord FlagSource.code op (aluImm w) = w :=
  immWord_immFields FlagSource.code_ofCode h

theorem immWord_pairImm (h : (opcodeOf w).toNat = op.toNat) : immWord Pair.code op (pairImm w) = w :=
  immWord_immFields Pair.code_ofCode h

theorem regWord_aluReg (h : (opcodeOf w).toNat = op.toNat) : regWord FlagSource.code op (aluReg w) = w :=
  regWord_regFields FlagSource.code_ofCode h

theorem regWord_pairReg (h : (opcodeOf w).toNat = op.toNat) : regWord Pair.code op (pairReg w) = w :=
  regWord_regFields Pair.code_ofCode h

end

/-! Of two names of one word the decoder gives the more specific one: the word stays, the name is well formed, and a
well-formed instruction keeps its name. -/

theorem encode_nameAddi (f : ImmForm FlagSource) : encode (nameAddi f) = immWord FlagSource.code 0x00 f := by
  unfold nameAddi
  split
  · next h => exact congrArg (immWord FlagSource.code 0x00) (eq_of_beq h).symm
  · rfl

theorem wellFormed_nameAddi (f : ImmForm FlagSource) : (nameAddi f).wellFormed = true := by
  unfold nameAddi
  split
  · rfl
  · next h => simpa [Instr.wellFormed] using h

theorem nameAddi_of_wellFormed {f : ImmForm FlagSource} (h : (Instr.addi f).wellFormed = true) :
    nameAddi f = .addi f := if_neg (by simpa [Instr.wellFormed] using h)

theorem unitExpansion_of_operation {f : ImmForm FlagSource} {operation : BitVec 8}
    (h : f.imm.extractLsb' 8 8 = operation) :
    unitExpansion operation ⟨f.reg, f.imm.extractLsb' 0 8, f.af, f.cond⟩ = f := by
  subst h
  have joined : f.imm.extractLsb' 8 8 ++ f.imm.extractLsb' 0 8 = f.imm := by grind
  simp only [unitExpansion, joined]

theorem encode_nameCopi (f : ImmForm FlagSource) : encode (nameCopi f) = immWord FlagSource.code 0x0F f := by
  simp only [nameCopi]
  split_ifs with h h h h h h
  case neg => rfl
  all_goals exact congrArg (immWord FlagSource.code 0x0F) (unitExpansion_of_operation h)

theorem wellFormed_nameCopi (f : ImmForm FlagSource) : (nameCopi f).wellFormed = true := by
  simp only [nameCopi]
  split_ifs
  case neg => simp_all [Instr.wellFormed, namesUnitOperation]
  all_goals rfl

theorem nameCopi_of_wellFormed {f : ImmForm FlagSource} (h : (Instr.copi f).wellFormed = true) :
    nameCopi f = .copi f := by
  simp_all [nameCopi, Instr.wellFormed, namesUnitOperation]

/-- The operation byte of an exception-unit call decides its name, and the parameter byte is kept. -/
theorem nameCopi_unitExpansion (operation : BitVec 8) (f : UnitForm) :
    nameCopi (unitExpansion operation f) =
      if operation = 0x11 then .excp f
      else if operation = 0x19 then .wait f
      else if operation = 0x1A then .rete f
      else if operation = 0x1B then .rset f
      else if operation = 0x1C then .etfr f
      else if operation = 0x1D then .ettr f
      else .copi (unitExpansion operation f) := by
  have high : (operation ++ f.par).extractLsb' 8 8 = operation := BitVec.extractLsb'_append_eq_left
  have low : (operation ++ f.par).extractLsb' 0 8 = f.par := BitVec.extractLsb'_append_eq_right
  simp only [nameCopi, unitExpansion, high, low]

theorem encode_nameLdea (f : ImmForm Pair) : encode (nameLdea f) = immWord Pair.code 0x18 f := by
  obtain ⟨reg, imm, af, cond⟩ := f
  unfold nameLdea
  split_ifs with hreg hrets
  · obtain ⟨rfl, rfl⟩ : imm = 0 ∧ af = .l := hrets
    obtain rfl : reg = .ph := hreg
    rfl
  · obtain rfl : reg = .ph := hreg
    rfl
  · rfl

theorem wellFormed_nameLdea (f : ImmForm Pair) : (nameLdea f).wellFormed = true := by
  unfold nameLdea
  split_ifs with hreg hrets
  · rfl
  · simpa [Instr.wellFormed, ← imp_iff_not_or] using hrets
  · simpa [Instr.wellFormed] using hreg

theorem nameLdea_of_wellFormed {f : ImmForm Pair} (h : (Instr.ldea f).wellFormed = true) :
    nameLdea f = .ldea f := if_neg (by simpa [Instr.wellFormed] using h)

theorem nameLdea_ljmpExpansion {f : JumpForm} (h : (Instr.ljmp f).wellFormed = true) :
    nameLdea (ljmpExpansion f) = .ljmp f := by
  have other : ¬ (f.imm = 0 ∧ f.pair = .l) := by simpa [Instr.wellFormed, ← imp_iff_not_or] using h
  exact (if_pos rfl).trans (if_neg other)

theorem encode_nameLdeaR (f : RegForm Pair) : encode (nameLdeaR f) = regWord Pair.code 0x19 f := by
  obtain ⟨dst, src, second, shift, af, cond⟩ := f
  unfold nameLdeaR
  split_ifs with hreg
  · obtain rfl : dst = .ph := hreg
    rfl
  · rfl

theorem wellFormed_nameLdeaR (f : RegForm Pair) : (nameLdeaR f).wellFormed = true := by
  unfold nameLdeaR
  split_ifs with h
  · rfl
  · simpa [Instr.wellFormed] using h

theorem nameLdeaR_of_wellFormed {f : RegForm Pair} (h : (Instr.ldeaR f).wellFormed = true) :
    nameLdeaR f = .ldeaR f := if_neg (by simpa [Instr.wellFormed] using h)

theorem encode_nameAddiS (f : ShortForm) : encode (nameAddiS f) = shortWord 0x20 f := by
  obtain ⟨reg, imm, shift, af, cond⟩ := f
  unfold nameAddiS
  split_ifs with haf
  · obtain rfl : af = .shift := haf
    rfl
  · rfl

theorem wellFormed_nameAddiS (f : ShortForm) : (nameAddiS f).wellFormed = true := by
  unfold nameAddiS
  split_ifs with h
  · rfl
  · simpa [Instr.wellFormed] using h

theorem nameAddiS_of_wellFormed {f : ShortForm} (h : (Instr.addiS f).wellFormed = true) :
    nameAddiS f = .addiS f := if_neg (by simpa [Instr.wellFormed] using h)

theorem encode_nameOrriS (f : ShortForm) : encode (nameOrriS f) = shortWord 0x25 f := by
  obtain ⟨reg, imm, shift, af, cond⟩ := f
  unfold nameOrriS
  split_ifs with h
  · obtain ⟨rfl, rfl⟩ : af = .shift ∧ imm = 0 := h
    rfl
  · rfl

theorem wellFormed_nameOrriS (f : ShortForm) : (nameOrriS f).wellFormed = true := by
  unfold nameOrriS
  split_ifs with h
  · rfl
  · simpa [Instr.wellFormed, ← imp_iff_not_or] using h

theorem nameOrriS_of_wellFormed {f : ShortForm} (h : (Instr.orriS f).wellFormed = true) :
    nameOrriS f = .orriS f := if_neg (by simpa [Instr.wellFormed, ← imp_iff_not_or] using h)

theorem encode_nameAddr (f : RegForm FlagSource) : encode (nameAddr f) = regWord FlagSource.code 0x30 f := by
  obtain ⟨dst, src, second, shift, af, cond⟩ := f
  unfold nameAddr
  split_ifs with haf
  · obtain rfl : af = .shift := haf
    rfl
  · rfl

theorem wellFormed_nameAddr (f : RegForm FlagSource) : (nameAddr f).wellFormed = true := by
  unfold nameAddr
  split_ifs with h
  · rfl
  · simpa [Instr.wellFormed] using h

theorem nameAddr_of_wellFormed {f : RegForm FlagSource} (h : (Instr.addr f).wellFormed = true) :
    nameAddr f = .addr f := if_neg (by simpa [Instr.wellFormed] using h)

/-! Every instruction -/

/-- Settles O1: the opcode of the word selects the row of the instruction, the fields come back, and a row with
several names gives the well-formed one. -/
theorem decodeAfterEncode : Obligations.DecodeAfterEncode := by
  intro i hi
  cases i with
  | adci f | subi f | sbci f | andi f | orri f | xori f | loadi f | addTest08 f | adcTest09 f | cmpi f
  | sbcTest0B f | tsai f | orrTest0D f | tsxi f =>
    rw [encode, decodeWord, opcodeOf_immWord]
    exact congrArg _ (aluImm_immWord _ f)
  | storInd f | storPre f | loadInd f | loadPost f | bran f | ljsr f | brsr f =>
    rw [encode, decodeWord, opcodeOf_immWord]
    exact congrArg _ (pairImm_immWord _ f)
  | storIndR f | storPreR f | loadIndR f | loadPostR f | branR f | ljsrR f | brsrR f =>
    rw [encode, decodeWord, opcodeOf_regWord]
    exact congrArg _ (pairReg_regWord _ f)
  | adciS f | subiS f | sbciS f | andiS f | xoriS f | loadS f | addTest28 f | adcTest29 f | cmpiS f | sbcTest2B f
  | tsaiS f | orrTest2D f | tsxiS f | copiS f =>
    rw [encode, decodeWord, opcodeOf_shortWord]
    exact congrArg _ (shortFields_shortWord _ f)
  | adcr f | subr f | sbcr f | andr f | orrr f | xorr f | loadr f | addTest38 f | adcTest39 f | cmpr f
  | sbcTest3B f | tsar f | orrTest3D f | tsxr f | copr f =>
    rw [encode, decodeWord, opcodeOf_regWord]
    exact congrArg _ (aluReg_regWord _ f)
  | addi f =>
    rw [encode, decodeWord, opcodeOf_immWord]
    exact (congrArg nameAddi (aluImm_immWord _ f)).trans (nameAddi_of_wellFormed hi)
  | noop =>
    rw [encode, decodeWord, opcodeOf_immWord]
    exact congrArg nameAddi (aluImm_immWord _ noopExpansion)
  | copi f =>
    rw [encode, decodeWord, opcodeOf_immWord]
    exact (congrArg nameCopi (aluImm_immWord _ f)).trans (nameCopi_of_wellFormed hi)
  | excp f | wait f | rete f | rset f | etfr f | ettr f =>
    rw [encode, decodeWord, opcodeOf_immWord]
    exact (congrArg nameCopi (aluImm_immWord _ _)).trans (nameCopi_unitExpansion _ f)
  | ldea f =>
    rw [encode, decodeWord, opcodeOf_immWord]
    exact (congrArg nameLdea (pairImm_immWord _ f)).trans (nameLdea_of_wellFormed hi)
  | rets c =>
    rw [encode, decodeWord, opcodeOf_immWord]
    exact congrArg nameLdea (pairImm_immWord _ (retsExpansion c))
  | ljmp f =>
    rw [encode, decodeWord, opcodeOf_immWord]
    exact (congrArg nameLdea (pairImm_immWord _ _)).trans (nameLdea_ljmpExpansion hi)
  | ldeaR f =>
    rw [encode, decodeWord, opcodeOf_regWord]
    exact (congrArg nameLdeaR (pairReg_regWord _ f)).trans (nameLdeaR_of_wellFormed hi)
  | ljmpR f =>
    rw [encode, decodeWord, opcodeOf_regWord]
    exact congrArg nameLdeaR (pairReg_regWord _ (ljmpRegExpansion f))
  | addiS f =>
    rw [encode, decodeWord, opcodeOf_shortWord]
    exact (congrArg nameAddiS (shortFields_shortWord _ f)).trans (nameAddiS_of_wellFormed hi)
  | shfi f =>
    rw [encode, decodeWord, opcodeOf_shortWord]
    exact congrArg nameAddiS (shortFields_shortWord _ (shfiExpansion f))
  | orriS f =>
    rw [encode, decodeWord, opcodeOf_shortWord]
    exact (congrArg nameOrriS (shortFields_shortWord _ f)).trans (nameOrriS_of_wellFormed hi)
  | shft f =>
    rw [encode, decodeWord, opcodeOf_shortWord]
    exact congrArg nameOrriS (shortFields_shortWord _ (shftExpansion f))
  | addr f =>
    rw [encode, decodeWord, opcodeOf_regWord]
    exact (congrArg nameAddr (aluReg_regWord _ f)).trans (nameAddr_of_wellFormed hi)
  | shfr f =>
    rw [encode, decodeWord, opcodeOf_regWord]
    exact congrArg nameAddr (aluReg_regWord _ (shfrExpansion f))

/-- Settles O2: the row of a word's opcode puts the fields of that word back, under a well-formed name. -/
theorem encodeAfterDecode : Obligations.EncodeAfterDecode := by
  intro w
  have bound : (opcodeOf w).toNat < 64 := (opcodeOf w).isLt
  unfold decodeWord
  split
  case h_1 h => exact ⟨wellFormed_nameAddi _, (encode_nameAddi _).trans (immWord_aluImm h)⟩
  case h_16 h => exact ⟨wellFormed_nameCopi _, (encode_nameCopi _).trans (immWord_aluImm h)⟩
  case h_25 h => exact ⟨wellFormed_nameLdea _, (encode_nameLdea _).trans (immWord_pairImm h)⟩
  case h_26 h => exact ⟨wellFormed_nameLdeaR _, (encode_nameLdeaR _).trans (regWord_pairReg h)⟩
  case h_33 h => exact ⟨wellFormed_nameAddiS _, (encode_nameAddiS _).trans (shortWord_shortFields h)⟩
  case h_38 h => exact ⟨wellFormed_nameOrriS _, (encode_nameOrriS _).trans (shortWord_shortFields h)⟩
  case h_49 h => exact ⟨wellFormed_nameAddr _, (encode_nameAddr _).trans (regWord_aluReg h)⟩
  case h_2 h | h_3 h | h_4 h | h_5 h | h_6 h | h_7 h | h_8 h | h_9 h | h_10 h | h_11 h | h_12 h | h_13 h | h_14 h
    | h_15 h => exact ⟨rfl, immWord_aluImm h⟩
  case h_17 h | h_19 h | h_21 h | h_23 h | h_27 h | h_29 h | h_31 h => exact ⟨rfl, immWord_pairImm h⟩
  case h_18 h | h_20 h | h_22 h | h_24 h | h_28 h | h_30 h | h_32 h => exact ⟨rfl, regWord_pairReg h⟩
  case h_34 h | h_35 h | h_36 h | h_37 h | h_39 h | h_40 h | h_41 h | h_42 h | h_43 h | h_44 h | h_45 h | h_46 h
    | h_47 h | h_48 h => exact ⟨rfl, shortWord_shortFields h⟩
  case h_50 h | h_51 h | h_52 h | h_53 h | h_54 h | h_55 h | h_56 h | h_57 h | h_58 h | h_59 h | h_60 h | h_61 h
    | h_62 h | h_63 h => exact ⟨rfl, regWord_aluReg h⟩
  case h_64 =>
    simp only [imp_false] at *
    have last : (opcodeOf w).toNat = 63 := by omega
    exact ⟨rfl, regWord_aluReg last⟩

/-- Bits 3 to 0 of the word of any instruction are the code of its condition. -/
theorem encode_condField (i : Instr) : (encode i).extractLsb' 0 4 = i.cond.code := by
  cases i <;> exact Laws.condField_append _ _

/-- The condition of a word is that of its bits 3 to 0, whatever the word decodes to (rule R99). -/
theorem decodeWord_cond (w : Long) : (decodeWord w).cond = Cond.ofCode (w.extractLsb' 0 4) := by
  have field := encode_condField (decodeWord w)
  rw [(encodeAfterDecode w).2] at field
  rw [field, Cond.ofCode_code]

/-- Settles O3: closed words, decoded by evaluation. -/
theorem decodesSpecWords : Obligations.DecodesSpecWords := by
  refine ⟨?_, ?_, ?_, ?_, ?_, ?_⟩ <;> rfl

end Sys2Proof
end

section
/-! Taking a fault (rules R330, R333, R334, R347): its code, its vector, and the state it enters. -/

namespace Sys2Proof.Machine

/-! Concatenation read as a number -/

theorem toNat_append_eq_add {m n : Nat} (x : BitVec m) (y : BitVec n) :
    (x ++ y).toNat = 2 ^ n * x.toNat + y.toNat := by
  rw [BitVec.toNat_append, ← Nat.shiftLeft_add_eq_or_of_lt y.isLt, Nat.shiftLeft_eq, Nat.mul_comm]

/-- A fault code as a vector id. -/
theorem zero_append_code (c : BitVec 4) : (0 : BitVec 4) ++ c = BitVec.ofNat 8 c.toNat := by
  refine BitVec.eq_of_toNat_eq ?_
  rw [toNat_append_eq_add, BitVec.toNat_ofNat]
  simp only [BitVec.ofNat_eq_ofNat, BitVec.toNat_ofNat]
  omega

theorem cause_of_fault (v : BitVec 8) : (0x1E : BitVec 8) ++ v = BitVec.ofNat 16 (0x1E00 + v.toNat) := by
  refine BitVec.eq_of_toNat_eq ?_
  rw [toNat_append_eq_add, BitVec.toNat_ofNat]
  simp only [BitVec.ofNat_eq_ofNat, BitVec.toNat_ofNat]
  omega

/-- The metadata word of LR7 as a sum of its fields (rule R333). -/
theorem metadata_toNat (original code : BitVec 4) (double : Bool) (phase : BitVec 3) :
    (0 : BitVec 4) ++ original ++ code ++ BitVec.ofBool double ++ phase =
      BitVec.ofNat 16 (phase.toNat + 8 * double.toNat + 16 * code.toNat + 256 * original.toNat) := by
  refine BitVec.eq_of_toNat_eq ?_
  have hd : (BitVec.ofBool double).toNat = double.toNat := BitVec.toNat_ofBool double
  have := Bool.toNat_le double
  simp only [toNat_append_eq_add, BitVec.toNat_ofNat, hd, BitVec.ofNat_eq_ofNat]
  omega

/-! The code of a fault -/

theorem State.faultCode_below {s : State} (h : s.level ≠ 7) (k : FaultKind) : s.faultCode k = FaultKind.code k :=
  if_neg h

theorem State.faultCode_double {s : State} (h : s.level = 7) (k : FaultKind) : s.faultCode k = 6 :=
  if_pos h

/-- No code is 0, whatever the open codes of the trace fault and of the conflict are (log entry 10). -/
theorem FaultKind.code_pos (k : FaultKind) : 1 ≤ (FaultKind.code k).toNat := by
  cases k with
  | bus | alignment | segmentOverflow | invalidOpcode | privilegeViolation => decide
  | instructionTrace | levelFiveConflict => simp only [FaultKind.code, BitVec.toNat_ofNat]; omega

/-- Settles O46. -/
theorem faultNumbers : Obligations.FaultNumbers := by
  intro s
  refine ⟨fun below => ?_, fun double k => s.faultCode_double double k, fun k => ?_⟩
  · simp only [State.faultCode_below below]; rfl
  · by_cases level : s.level = 7
    · rw [s.faultCode_double level]; decide
    · rw [s.faultCode_below level]; exact k.code_pos

/-! The vector read -/

theorem State.readVector_unreadable {s : State} {v : BitVec 8} (h : ¬ s.vectorReadable v) :
    s.readVector v = .error .vectorReadBusError := by
  refine if_pos ?_
  rw [Bool.or_eq_true]
  by_contra refused
  exact h (by simpa [State.vectorReadable] using refused)

/-! Fault entry -/

/-- Fault entry whose vector the platform answers completes, below level 7 and at it (rule R333). -/
theorem takeFault_readable {s : State} (ra : Long) (f : FaultInfo)
    (h : s.vectorReadable (BitVec.ofNat 8 (s.faultCode f.kind).toNat)) :
    let v := BitVec.ofNat 8 (s.faultCode f.kind).toNat
    takeFault s ra f = .next { s with
      links := (s.links.set 6 ⟨ra, s.statusWord, s.level⟩).set 7
        ⟨f.bus.setWidth 32, s.faultStatus f, (s.links[7]).level⟩
      sr := s.sr &&& 0x7EFF, level := 7, waiting := false
      ph := s.vectorHigh v, pl := s.vectorLow v, cause := (0x1E : BitVec 8) ++ v } := by
  obtain ⟨high, low⟩ := h
  simp only [takeFault, State.faultEntry, zero_append_code, State.exceptionEntry_readable high low]
  rfl

theorem takeFault_unreadable {s : State} (ra : Long) (f : FaultInfo)
    (h : ¬ s.vectorReadable (BitVec.ofNat 8 (s.faultCode f.kind).toNat)) :
    takeFault s ra f = .fault .vectorReadBusError := by
  simp only [takeFault, State.faultEntry, State.exceptionEntry, zero_append_code, State.readVector_unreadable h]

/-- Settles O49. -/
theorem vectorReadStops : Obligations.VectorReadStops := by
  intro s ra f v refused
  exact takeFault_unreadable ra f refused

theorem State.faultStatus_below {s : State} (h : s.level ≠ 7) (f : FaultInfo) :
    s.faultStatus f = BitVec.ofNat 16 (f.phase.toNat + 16 * (s.faultCode f.kind).toNat) := by
  simp only [State.faultStatus, h, decide_false, metadata_toNat]
  rfl

theorem State.faultStatus_double {s : State} (h : s.level = 7) (f : FaultInfo) :
    s.faultStatus f = BitVec.ofNat 16
      (f.phase.toNat + 8 + 16 * 6 + 256 * ((s.links[7]).status.extractLsb' 4 4).toNat) := by
  simp only [State.faultStatus, h, decide_true, metadata_toNat, State.faultCode_double h]
  rfl

/-- Settles O47: fault entry with the metadata of a fault below level 7. -/
theorem faultEntry : Obligations.FaultEntry := by
  intro s ra f below v readable
  rw [takeFault_readable ra f readable, State.faultStatus_below below, cause_of_fault, ← BitVec.ofNat_toNat]

/-- Settles O48: at level 7 the code is 6, and the metadata has the double-fault flag and the old type. -/
theorem doubleFault : Obligations.DoubleFault := by
  intro s ra f double readable original
  have code : s.faultCode f.kind = 6 := s.faultCode_double double _
  have vector : BitVec.ofNat 8 (s.faultCode f.kind).toNat = 6 := by rw [code]; rfl
  rw [takeFault_readable ra f (vector.symm ▸ readable), vector, State.faultStatus_double double,
    ← BitVec.ofNat_toNat, double]
  rfl

end Sys2Proof.Machine
end

section
/-! The boundary between two instructions and the fetch (rules R161, R162, R346, R351 to R353, R380): what one step is
in each of the cases of `State.boundary`. -/

namespace Sys2Proof.Machine

/-! Interrupt lines -/

/-- Settles O53. -/
theorem lineAcceptance : Obligations.LineAcceptance := by
  intro s lines k
  refine ⟨?_, rfl⟩
  cases k with
  | one =>
    simp only [State.latch, State.conflict, Lines.get, State.withPending_pending, Bool.or_eq_true, Bool.and_eq_true,
      Bool.not_eq_true', Bool.and_eq_false_iff, beq_eq_false_iff_ne, true_and]
    refine or_congr_right ⟨?_, ?_⟩
    · rintro ⟨⟨asserted, enabled⟩, (absent | disabled) | level⟩
      · exact absurd asserted (by simp [absent])
      · exact absurd enabled (by simp [disabled])
      · exact ⟨asserted, enabled, level⟩
    · rintro ⟨asserted, enabled, level⟩
      exact ⟨⟨asserted, enabled⟩, .inr level⟩
  | two | three | four | five => simp [State.latch, Lines.get]

theorem State.eligible_iff (s : State) (k : Line) :
    s.eligible k = true ↔ s.pending.get k = true ∧ s.lineEnabled k = true ∧ s.level < (Line.link k).succ := by
  rw [State.eligible, Bool.and_eq_true, Bool.and_eq_true, decide_eq_true_iff, and_assoc]

/-- No line's handler has a level above 6. -/
theorem State.not_eligible_at_seven {s : State} (h : s.level = 7) (k : Line) : s.eligible k = false := by
  rw [← Bool.not_eq_true, State.eligible_iff, h]
  rintro ⟨-, -, above⟩
  cases k <;> exact absurd above (by decide)

/-- The candidate is eligible and of the highest level of all eligible lines. -/
theorem State.candidate_some {s : State} {k : Line} (h : s.candidate = some k) :
    s.eligible k = true ∧ ∀ j, s.eligible j = true → Line.link j ≤ Line.link k := by
  unfold State.candidate at h
  split_ifs at h with h1 h2 h3 h4 h5 <;> cases h
  · exact ⟨h1, fun j _ => by cases j <;> decide⟩
  · refine ⟨h2, fun j hj => ?_⟩
    cases j with
    | one => exact absurd hj h1
    | two | three | four | five => decide
  · refine ⟨h3, fun j hj => ?_⟩
    cases j with
    | one => exact absurd hj h1
    | two => exact absurd hj h2
    | three | four | five => decide
  · refine ⟨h4, fun j hj => ?_⟩
    cases j with
    | one => exact absurd hj h1
    | two => exact absurd hj h2
    | three => exact absurd hj h3
    | four | five => decide
  · refine ⟨h5, fun j hj => ?_⟩
    cases j with
    | one => exact absurd hj h1
    | two => exact absurd hj h2
    | three => exact absurd hj h3
    | four => exact absurd hj h4
    | five => decide

theorem State.candidate_none_iff (s : State) : s.candidate = none ↔ ∀ j, s.eligible j = false := by
  constructor
  · intro h j
    unfold State.candidate at h
    split_ifs at h
    cases j <;> exact Bool.eq_false_iff.mpr ‹_›
  · intro h
    simp [State.candidate, h]

/-- Settles O54. -/
theorem highestLineWins : Obligations.HighestLineWins := by
  intro s
  refine ⟨fun k hk => ?_, ?_, fun level => s.candidate_none_iff.mpr (s.not_eligible_at_seven level)⟩
  · obtain ⟨eligible, highest⟩ := State.candidate_some hk
    obtain ⟨pending, enabled, above⟩ := (s.eligible_iff k).mp eligible
    exact ⟨pending, enabled, above, fun j hp he ha => highest j ((s.eligible_iff j).mpr ⟨hp, he, ha⟩)⟩
  · rw [s.candidate_none_iff]
    refine forall_congr' fun j => ?_
    rw [← Bool.not_eq_true, s.eligible_iff]
    tauto

/-! One step, by what the boundary finds -/

/-- A reset event wins over everything else at its boundary (log entry 25). -/
theorem step_of_reset {s r : State} {lines : Lines} {v : ResetValues} (pins : s.takePins = (⟨some v, lines⟩, r)) :
    step s = hardwareReset r v := by
  simp only [step, State.boundary, pins]

section
variable {s r : State} {lines : Lines} (pins : s.takePins = (⟨none, lines⟩, r))
include pins

theorem step_of_conflict (h : r.conflict lines = true) :
    step s = takeFault (r.latch lines) (r.latch lines).pc ⟨.levelFiveConflict, 0, 0⟩ := by
  simp only [step, State.boundary, pins, h, if_true]

variable (quiet : r.conflict lines = false)
include quiet

theorem step_of_candidate {k : Line} (h : (r.latch lines).candidate = some k) :
    step s = hardwareException (r.latch lines) k := by
  simp only [step, State.boundary, pins, quiet, h, Bool.false_eq_true, if_false]

theorem step_of_waiting (h : (r.latch lines).candidate = none) (waiting : (r.latch lines).waiting = true) :
    step s = .next (r.latch lines) := by
  simp only [step, State.boundary, pins, quiet, h, waiting, Bool.false_eq_true, if_false, if_true]

theorem step_of_run (h : (r.latch lines).candidate = none) (running : (r.latch lines).waiting = false) :
    step s = fetchAndRun (r.latch lines) := by
  simp only [step, State.boundary, pins, quiet, h, running, Bool.false_eq_true, if_false]

end

/-- A hardware reset whose vector the platform answers completes (rule R381). -/
theorem hardwareReset_readable {s : State} (v : ResetValues) (h : s.vectorReadable 0) :
    hardwareReset s v = .next
      { s with
        sr := 0, gen := v.gen, ph := s.vectorHigh 0, pl := s.vectorLow 0, links := v.links, cause := v.cause,
        level := 0, waiting := false, pending := Lines.none } := by
  obtain ⟨high, low⟩ := h
  simp only [hardwareReset, State.readVector_readable high low, State.withPc,
    BitVec.extractLsb'_append_eq_left, BitVec.extractLsb'_append_eq_right]
  rfl

/-- Settles O7. -/
theorem hardwareResetSequence : Obligations.HardwareResetSequence := by
  intro s v lines rest inputs readable r
  have pins : s.takePins = (⟨some v, lines⟩, r) := by simp only [State.takePins, inputs]; rfl
  have readable : r.vectorReadable 0 := readable
  rw [step_of_reset pins, hardwareReset_readable v readable]
  rfl

/-- Settles O52. -/
theorem waitingStepIdles : Obligations.WaitingStepIdles := by
  intro s r lines pins u quiet none waiting
  exact step_of_waiting pins quiet none waiting

/-- The entry of rule R353 whose vector the platform answers: that of R330 from the machine whose latch is cleared. -/
theorem hardwareException_readable {s : State} {k : Line} (h : s.vectorReadable (Line.vector k)) :
    hardwareException s k = .next
      { s with
        pending := s.pending.clear k
        links := s.links.set (Line.link k).castSucc ⟨s.pc, s.statusWord, s.level⟩
        sr := s.sr &&& 0x7EFF, level := (Line.link k).succ, waiting := false
        ph := s.vectorHigh (Line.vector k), pl := s.vectorLow (Line.vector k)
        cause := (0x1F : BitVec 8) ++ Line.vector k } := by
  obtain ⟨high, low⟩ : (s.withPending (s.pending.clear k)).vectorReadable (Line.vector k) := h
  simp only [hardwareException, State.exceptionEntry_readable high low]
  rfl

/-- Settles O55. -/
theorem hardwareExceptionTaken : Obligations.HardwareExceptionTaken := by
  intro s r lines k pins u quiet candidate readable
  exact (step_of_candidate pins quiet candidate).trans (hardwareException_readable readable)

/-- Settles O56: the assertion that raises the conflict is the one that is not latched. -/
theorem levelFiveConflict : Obligations.LevelFiveConflict := by
  intro s r lines pins asserted enabled level u
  have conflict : r.conflict lines = true := by simp [State.conflict, State.lineEnabled, asserted, level, enabled]
  refine ⟨step_of_conflict pins conflict, ?_⟩
  simp [u, State.latch, conflict]

/-! The fetch -/

section
variable {s : State}

theorem State.fetch_odd (odd : s.pl.getLsbD 0 = true) : s.fetch = .error ⟨.alignment, 0, 0⟩ := if_pos odd

variable (even : s.pl.getLsbD 0 = false)
include even

theorem State.fetch_high_refused (high : s.busError (addressOf s.ph s.pl) = true) :
    s.fetch = .error ⟨.bus, 0, addressOf s.ph s.pl⟩ := by
  simp only [State.fetch, even, high, Bool.false_eq_true, if_false, if_true]

variable (high : s.busError (addressOf s.ph s.pl) = false)
include high

theorem State.fetch_low_refused (low : s.busError (addressOf s.ph (s.pl + 1)) = true) :
    s.fetch = .error ⟨.bus, 1, addressOf s.ph (s.pl + 1)⟩ := by
  simp only [State.fetch, even, high, low, Bool.false_eq_true, if_false, if_true]

variable (low : s.busError (addressOf s.ph (s.pl + 1)) = false)
include low

theorem State.fetch_overflow (last : s.pl = 0xFFFE ∧ s.trapsOverflow = true) :
    s.fetch = .error ⟨.segmentOverflow, 1, 0⟩ := by
  simp only [State.fetch, even, high, low, Bool.false_eq_true, if_false, if_pos last]

theorem State.fetch_ok (inside : ¬ (s.pl = 0xFFFE ∧ s.trapsOverflow = true)) :
    s.fetch = .ok (s.busRead .fetch (addressOf s.ph s.pl) ++ s.busRead .fetch (addressOf s.ph (s.pl + 1))) := by
  simp only [State.fetch, even, high, low, Bool.false_eq_true, if_false, if_neg inside]

end

theorem fetchAndRun_error {s : State} {f : FaultInfo} (h : s.fetch = .error f) :
    fetchAndRun s = takeFault s s.pc f := by
  simp only [fetchAndRun, h]

theorem fetchAndRun_ok {s : State} {w : Long} (h : s.fetch = .ok w) : fetchAndRun s = exec (decodeWord w) s := by
  simp only [fetchAndRun, h]

/-- Settles O50. -/
theorem stepRunsDecodedInstruction : Obligations.StepRunsDecodedInstruction := by
  intro s r lines i pins u quiet none running even high low inside _ decoded
  have word : decodeWord
      (u.busRead .fetch (addressOf u.ph u.pl) ++ u.busRead .fetch (addressOf u.ph (u.pl + 1))) = i := by
    injection decoded with pair
    exact congrArg Prod.fst pair
  rw [step_of_run pins quiet none running, fetchAndRun_ok (State.fetch_ok even high low inside), word]

/-- Settles O51: the tests of `State.fetch` in their order. -/
theorem fetchFaults : Obligations.FetchFaults := by
  intro s r lines pins u quiet none running x y trap
  have run : step s = fetchAndRun u := step_of_run pins quiet none running
  have fault {f : FaultInfo} (h : u.fetch = .error f) : step s = takeFault u (u.ph ++ u.pl) f :=
    run.trans (fetchAndRun_error h)
  exact ⟨fun odd => fault (State.fetch_odd odd), fun even =>
    ⟨fun high => fault (State.fetch_high_refused even high), fun high =>
      ⟨fun low => fault (State.fetch_low_refused even high low), fun low last traps =>
        fault (State.fetch_overflow even high low ⟨last, traps⟩)⟩⟩⟩

end Sys2Proof.Machine
end

section
/-! What every instruction and every step keeps. Whatever an instruction does is an `Effect`, perhaps followed by the
entry of a fault (`exec_effect`); a step is that, an entry between instructions, or a reset (`step_effect`). -/

namespace Sys2Proof.Machine

/-! One inversion for every instruction, and one for every step -/

theorem Quiet.advance (s : State) : Quiet s s.advance := Quiet.write (r := .pl) _ (forbidsWrite_low s .p)

theorem State.advance_read_high (s : State) (pair : Pair) :
    s.advance.read (Pair.high pair) = s.read (Pair.high pair) := by cases pair <;> rfl

/-- The advance of the program counter is part of an instruction's effect (log entry 23). -/
theorem Effect.of_advance {s t : State} (h : Effect s.advance t) : Effect s t :=
  ⟨h.platform, h.tick, h.inputs, h.pending,
    by simpa only [State.advance_read_high, State.advance_mem] using h.mem, h.links, h.bit13, h.confined⟩

theorem exec_effect {i : Instr} {s t : State} (h : exec i s = .next t) :
    ∃ w, Effect s w ∧ (t = w ∨ ∃ ra f, takeFault w ra f = .next t) := by
  rcases exec_cases h with ⟨w, completed, ended⟩ | ⟨f, fault⟩
  · have effect : Effect s w := by
      rcases completed with rfl | effect
      · exact (Quiet.advance s).effect
      · exact effect.of_advance
    refine ⟨w, effect, ?_⟩
    rcases ended with ⟨-, rfl⟩ | ⟨-, traced⟩
    · exact .inl rfl
    · exact .inr ⟨_, _, traced⟩
  · exact ⟨s, (Quiet.refl s).effect, .inr ⟨_, _, fault⟩⟩

/-- The machine at its boundary: the pin events taken, the enabled lines latched. -/
def State.atBoundary (s : State) : State := s.takePins.2.latch s.takePins.1.lines

section
variable (s : State)

/-- Of the machine, a boundary changes the latches only. -/
theorem State.atBoundary_eq : s.atBoundary =
    { s with inputs := s.atBoundary.inputs, tick := s.tick + 1, pending := s.atBoundary.pending } := by
  simp only [State.atBoundary, State.takePins]
  split <;> rfl

@[simp] theorem State.atBoundary_sr : s.atBoundary.sr = s.sr := by rw [State.atBoundary_eq]
@[simp] theorem State.atBoundary_mem : s.atBoundary.mem = s.mem := by rw [State.atBoundary_eq]
@[simp] theorem State.atBoundary_links : s.atBoundary.links = s.links := by rw [State.atBoundary_eq]
@[simp] theorem State.atBoundary_level : s.atBoundary.level = s.level := by rw [State.atBoundary_eq]
@[simp] theorem State.atBoundary_isProtected : s.atBoundary.isProtected = s.isProtected := by
  rw [State.atBoundary_eq]; rfl
@[simp] theorem State.atBoundary_segments : s.atBoundary.segments = s.segments := by
  rw [State.atBoundary_eq]; rfl
@[simp] theorem State.atBoundary_inputs : s.atBoundary.inputs = s.inputs.tail := by
  simp only [State.atBoundary, State.takePins]
  split <;> next h => simp [State.latch, h]

end

/-- How a step comes to a next state. -/
theorem step_effect {s t : State} (h : step s = .next t) :
    (∃ v, s.takePins.1.reset = some v ∧ hardwareReset s.takePins.2 v = .next t) ∨
    (∃ k, s.atBoundary.candidate = some k ∧ hardwareException s.atBoundary k = .next t) ∨
    ∃ w, Effect s.atBoundary w ∧ (t = w ∨ ∃ ra f, takeFault w ra f = .next t) := by
  have still : Effect s.atBoundary s.atBoundary := (Quiet.refl _).effect
  rcases step_next h with reset | ⟨-, conflict | interrupt | idle | ⟨f, -, fault⟩ | ⟨w, -, run⟩⟩
  · exact .inl reset
  · exact .inr (.inr ⟨_, still, .inr ⟨_, _, conflict⟩⟩)
  · exact .inr (.inl interrupt)
  · exact .inr (.inr ⟨_, still, .inl idle⟩)
  · exact .inr (.inr ⟨_, still, .inr ⟨_, _, fault⟩⟩)
  · exact .inr (.inr (exec_effect run))

/-! Leaving protected mode -/

theorem isProtected_of_and_7EFF {s t : State} (h : t.sr = s.sr &&& 0x7EFF) : t.isProtected = false := by
  rw [State.isProtected, h]; exact (and_7EFF s.sr).1

theorem takeFault_supervisor {s t : State} {ra : Long} {f : FaultInfo} (h : takeFault s ra f = .next t) :
    t.isProtected = false := by
  obtain ⟨-, -, sr, -⟩ := takeFault_fields h
  exact isProtected_of_and_7EFF sr

/-- The fields of the state a hardware exception leaves. -/
theorem hardwareException_fields {s t : State} {k : Line} (h : hardwareException s k = .next t) :
    t.level = (Line.link k).succ ∧ t.waiting = false ∧ t.sr = s.sr &&& 0x7EFF ∧ t.mem = s.mem ∧
      t.inputs = s.inputs ∧ t.links = s.links.set (Line.link k).castSucc ⟨s.pc, s.statusWord, s.level⟩ := by
  obtain ⟨u, entry, rfl⟩ := hardwareException_next h
  obtain ⟨w, -, rfl⟩ := State.exceptionEntry_ok entry
  exact ⟨rfl, rfl, rfl, rfl, rfl, rfl⟩

theorem hardwareException_supervisor {s t : State} {k : Line} (h : hardwareException s k = .next t) :
    t.isProtected = false := by
  obtain ⟨-, -, sr, -⟩ := hardwareException_fields h
  exact isProtected_of_and_7EFF sr

theorem hardwareReset_supervisor {s t : State} {v : ResetValues} (h : hardwareReset s v = .next t) :
    t.isProtected = false := by
  obtain ⟨target, -, rfl⟩ := hardwareReset_next h
  exact BitVec.getLsbD_zero

theorem State.candidate_above {s : State} {k : Line} (h : s.candidate = some k) : s.level < (Line.link k).succ :=
  ((s.eligible_iff k).mp (State.candidate_some h).1).2.2

/-- Settles O57: what leaves the machine in protected mode is an instruction's effect, which keeps the segments. -/
theorem segmentsFixedInProtectedMode : Obligations.SegmentsFixedInProtectedMode := by
  intro s t before h after
  rcases step_effect h with ⟨v, -, reset⟩ | ⟨k, -, interrupt⟩ | ⟨w, effect, rfl | ⟨ra, f, fault⟩⟩
  · exact absurd after (by simp [hardwareReset_supervisor reset])
  · exact absurd after (by simp [hardwareException_supervisor interrupt])
  · rcases effect.confined (by simpa using before) with ⟨-, same⟩ | ⟨left, -⟩
    · exact same.trans s.atBoundary_segments
    · exact absurd after (by simp [left])
  · exact absurd after (by simp [takeFault_supervisor fault])

/-- Settles O59: EXCP raises the level from 0 to 1, an interrupt to that of its line, a fault to 7. -/
theorem protectedModeLeftByException : Obligations.ProtectedModeLeftByException := by
  intro s t before h after
  rcases step_effect h with ⟨v, event, -⟩ | ⟨k, candidate, interrupt⟩ | ⟨w, effect, rfl | ⟨ra, f, fault⟩⟩
  · exact .inl ⟨v, event⟩
  · obtain ⟨level, waiting, -⟩ := hardwareException_fields interrupt
    have above := State.candidate_above candidate
    rw [State.atBoundary_level, ← level] at above
    exact .inr ⟨.inl above, waiting⟩
  · rcases effect.confined (by simpa using before) with ⟨stays, -⟩ | ⟨-, zero, one, waiting⟩
    · exact absurd stays (by simp [after])
    · rw [State.atBoundary_level] at zero
      exact .inr ⟨.inl (by rw [zero, one]; decide), waiting⟩
  · obtain ⟨level, waiting, -⟩ := takeFault_fields fault
    have raised : s.level < t.level ∨ s.level = 7 ∧ t.level = 7 := by omega
    exact .inr ⟨raised, waiting⟩

/-! Memory -/

theorem takeFault_mem {s t : State} {ra : Long} {f : FaultInfo} (h : takeFault s ra f = .next t) :
    t.mem = s.mem := by
  obtain ⟨-, -, -, -, mem, -⟩ := takeFault_fields h
  exact mem

theorem hardwareReset_mem {s t : State} {v : ResetValues} (h : hardwareReset s v = .next t) : t.mem = s.mem := by
  obtain ⟨target, -, rfl⟩ := hardwareReset_next h
  rfl

theorem State.takePins_mem (s : State) : s.takePins.2.mem = s.mem := by rw [s.takePins_eq]; rfl

/-- A step changes one word of memory at most, in a segment that a high register names. -/
theorem step_mem {s t : State} (h : step s = .next t) : t.mem = s.mem ∨
    ∃ pair low v, t.mem = Memory.setWord s.mem (addressOf (s.read (Pair.high pair)) low) v := by
  rcases step_effect h with ⟨v, -, reset⟩ | ⟨k, -, interrupt⟩ | ⟨w, effect, ended⟩
  · exact .inl ((hardwareReset_mem reset).trans s.takePins_mem)
  · obtain ⟨-, -, -, mem, -⟩ := hardwareException_fields interrupt
    exact .inl (mem.trans s.atBoundary_mem)
  · have mem : t.mem = w.mem := by
      rcases ended with rfl | ⟨ra, f, fault⟩
      · rfl
      · exact takeFault_mem fault
    have high (pair : Pair) : s.atBoundary.read (Pair.high pair) = s.read (Pair.high pair) := by
      rw [State.atBoundary_eq]; cases pair <;> rfl
    simpa only [mem, s.atBoundary_mem, high] using effect.mem

/-- The segment of an address is the low byte of the high register (rule R26). -/
theorem addressOf_segment (high low : Word) : (addressOf high low).extractLsb' 16 8 = high.extractLsb' 0 8 :=
  BitVec.extractLsb'_append_eq_left

/-- Settles O58: the word a step changes is the one it stores, in the segment of a pair's high register. -/
theorem storesConfinedToSegments : Obligations.StoresConfinedToSegments := by
  rintro s t a ⟨canonical, -⟩ - h changed
  rcases step_mem h with mem | ⟨pair, low, v, mem⟩
  · exact absurd (by rw [State.word, mem]; rfl) changed
  · have stored : a = addressOf (s.read (Pair.high pair)) low := by
      by_contra other
      exact changed (by rw [State.word, mem]; exact Memory.word_setWord_other canonical v other)
    rw [stored, addressOf_segment]
    cases pair <;> simp [Pair.high, State.read]

/-! The invariant -/

theorem Effect.inv {s t : State} (h : Effect s t) (inv : s.Inv) : t.Inv := by
  obtain ⟨canonical, bit13, ordered, events⟩ := inv
  refine ⟨?_, h.bit13 bit13, h.links ordered, by rw [h.inputs]; exact events⟩
  rcases h.mem with mem | ⟨pair, low, v, mem⟩ <;> rw [mem]
  · exact canonical
  · exact Memory.wf_setWord canonical _ v

theorem takeFault_inv {s t : State} {ra : Long} {f : FaultInfo} (h : takeFault s ra f = .next t) (inv : s.Inv) :
    t.Inv := by
  obtain ⟨canonical, bit13, ordered, events⟩ := inv
  obtain ⟨u, metadata, cause, entry, rfl⟩ := takeFault_next h
  obtain ⟨w, -, rfl⟩ := State.exceptionEntry_ok entry
  exact ⟨canonical, and_7EFF_bit13 _ bit13,
    linksOrdered_set_seven _ (linksOrdered_set_entry 6 _ (.inl rfl) ordered), events⟩

/-- A line is entered above the level it saves, so LR0 to LR5 stay ordered. -/
theorem hardwareException_inv {s t : State} {k : Line} (h : hardwareException s k = .next t)
    (candidate : s.candidate = some k) (inv : s.Inv) : t.Inv := by
  obtain ⟨canonical, bit13, ordered, events⟩ := inv
  obtain ⟨-, -, sr, mem, inputs, links⟩ := hardwareException_fields h
  have saved : s.level.val ≤ (Line.link k).val := Nat.le_of_lt_succ (State.candidate_above candidate)
  exact ⟨mem ▸ canonical, sr ▸ and_7EFF_bit13 _ bit13,
    links ▸ linksOrdered_set_entry _ _ (.inr saved) ordered, inputs ▸ events⟩

theorem State.atBoundary_inv {s : State} (inv : s.Inv) : s.atBoundary.Inv := by
  obtain ⟨canonical, bit13, ordered, events⟩ := inv
  exact ⟨by simpa using canonical, by simpa using bit13, by simpa using ordered,
    fun p hp => events p (List.mem_of_mem_tail (s.atBoundary_inputs ▸ hp))⟩

/-- A reset takes the link registers of its event, which are ordered (log entry 8). -/
theorem hardwareReset_inv {s t : State} {v : ResetValues} (event : s.takePins.1.reset = some v)
    (h : hardwareReset s.takePins.2 v = .next t) (inv : s.Inv) : t.Inv := by
  obtain ⟨canonical, -, -, events⟩ := inv
  obtain ⟨target, -, rfl⟩ := hardwareReset_next h
  unfold State.takePins at event ⊢
  split at event
  · cases event
  · next p rest inputs =>
    rw [inputs] at events
    have event : p.reset = some v := event
    have links : linksOrdered v.links = true := by
      simpa only [Pins.ordered, event] using events p List.mem_cons_self
    exact ⟨canonical, BitVec.getLsbD_zero, links, fun q hq => events q (List.mem_cons_of_mem p hq)⟩

/-- Settles O6. -/
theorem invariantKept : Obligations.InvariantKept := by
  intro s t inv h
  rcases step_effect h with ⟨v, event, reset⟩ | ⟨k, candidate, interrupt⟩ | ⟨w, effect, rfl | ⟨ra, f, fault⟩⟩
  · exact hardwareReset_inv event reset inv
  · exact hardwareException_inv interrupt candidate (State.atBoundary_inv inv)
  · exact effect.inv (State.atBoundary_inv inv)
  · exact takeFault_inv fault (effect.inv (State.atBoundary_inv inv))

/-- Settles O5. -/
theorem invariantAtReset : Obligations.InvariantAtReset :=
  ⟨State.wf_reset, BitVec.getLsbD_zero, by decide, fun _ h => nomatch h⟩

/-! What every instruction leaves alone, and where a traced one ends -/

/-- Settles O45. -/
theorem environmentUntouched : Obligations.EnvironmentUntouched := by
  intro i s t h
  obtain ⟨w, effect, rfl | ⟨ra, f, fault⟩⟩ := exec_effect h
  · exact ⟨effect.platform, effect.tick, effect.inputs, effect.pending⟩
  · obtain ⟨-, -, -, -, -, pending, platform, tick, inputs⟩ := takeFault_fields fault
    exact ⟨platform.trans effect.platform, tick.trans effect.tick, inputs.trans effect.inputs,
      pending.trans effect.pending⟩

/-- Settles O43: with T set an instruction comes to a next state only through a fault entry, its own or the trace
fault's. -/
theorem tracedInstructionEndsInHandler : Obligations.TracedInstructionEndsInHandler := by
  intro i s t traced h
  have entry : ∃ u ra f, takeFault u ra f = .next t := by
    rcases exec_cases h with ⟨u, -, ⟨untraced, -⟩ | ⟨-, fault⟩⟩ | ⟨f, fault⟩
    · exact absurd traced (by simp [untraced])
    · exact ⟨u, _, _, fault⟩
    · exact ⟨s, _, f, fault⟩
  obtain ⟨u, ra, f, fault⟩ := entry
  obtain ⟨level, waiting, sr, -⟩ := takeFault_fields fault
  refine ⟨level, ?_, takeFault_supervisor fault, waiting⟩
  rw [State.tracing, sr]
  exact (and_7EFF u.sr).2

end Sys2Proof.Machine
end

section
/-! The registers (rules R20 to R35): the status register in both modes, and the register file. -/

namespace Sys2Proof.Machine

/-- Settles O4: closed fields, by evaluation. -/
theorem resetState : Obligations.ResetState := by
  unfold Obligations.ResetState
  decide

/-! The status register -/

/-- The mask that drops bit 13 keeps every other bit. -/
theorem and_DFFF_getLsbD (x : Word) (i : Nat) : (x &&& 0xDFFF).getLsbD i = (decide (i ≠ 13) && x.getLsbD i) := by
  have mask : ∀ j < 16, (0xDFFF : Word).getLsbD j = decide (j ≠ 13) := by decide
  rw [BitVec.getLsbD_and]
  by_cases h : i < 16
  · rw [mask i h, Bool.and_comm]
  · simp [BitVec.getLsbD_of_ge x i (by omega)]

/-- Bit 13 reads as the level says, every other bit as stored (rule R35). -/
theorem State.statusWord_getLsbD (s : State) (i : Nat) :
    s.statusWord.getLsbD i = if i = 13 then decide (s.level ≠ 0) else s.sr.getLsbD i := by
  have flag : ∀ j < 16, (0x2000 : Word).getLsbD j = decide (j = 13) := by decide
  have level : (if s.level = 0 then (0 : Word) else 0x2000).getLsbD i = (decide (s.level ≠ 0) && decide (i = 13)) := by
    by_cases h : i < 16
    · split
      · next zero => simp [zero]
      · next raised => rw [flag i h]; simp [raised]
    · rw [BitVec.getLsbD_of_ge _ i (by omega)]
      simp [show i ≠ 13 by omega]
  rw [State.statusWord, BitVec.getLsbD_or, and_DFFF_getLsbD, level]
  by_cases h : i = 13 <;> simp [h]

theorem State.read_sr_protected {s : State} (h : s.isProtected = true) : s.read .sr = s.sr &&& 0x00FF := if_pos h

theorem State.read_sr_supervisor {s : State} (h : s.isProtected = false) : s.read .sr = s.statusWord :=
  if_neg (by simp [h])

theorem State.filterSr_protected {s : State} (v : Word) (h : s.isProtected = true) :
    s.filterSr v = (s.sr &&& 0xFF00) ||| (v &&& 0x00FF) := if_pos h

theorem State.filterSr_supervisor {s : State} (v : Word) (h : s.isProtected = false) : s.filterSr v = v &&& 0xDFFF :=
  if_neg (by simp [h])

/-- Settles O8. -/
theorem statusRegisterAccess : Obligations.StatusRegisterAccess := by
  intro s v
  refine ⟨fun mode => ⟨State.read_sr_protected mode, congrArg s.withSr (State.filterSr_protected v mode)⟩,
    fun mode => ⟨?_, fun i other => ?_, congrArg s.withSr (State.filterSr_supervisor v mode)⟩⟩
  · rw [State.read_sr_supervisor mode, s.statusWord_getLsbD, if_pos rfl]
  · rw [State.read_sr_supervisor mode, s.statusWord_getLsbD, if_neg other]

/-- The status register written back as it reads: nothing changes where bit 13 is not stored. -/
theorem State.filterSr_read_sr {s : State} (h : s.sr.getLsbD 13 = false) : s.filterSr (s.read .sr) = s.sr := by
  refine BitVec.eq_of_getLsbD_eq fun i hi => ?_
  cases mode : s.isProtected with
  | true =>
    have halves : ∀ j < 16, ((0xFF00 : Word).getLsbD j || (0x00FF : Word).getLsbD j) = true := by decide
    have kept := halves i hi
    rw [State.filterSr_protected _ mode, State.read_sr_protected mode]
    simp only [BitVec.getLsbD_or, BitVec.getLsbD_and]
    rw [Bool.and_assoc, Bool.and_self, ← Bool.and_or_distrib_left, kept, Bool.and_true]
  | false =>
    rw [State.filterSr_supervisor _ mode, State.read_sr_supervisor mode, and_DFFF_getLsbD, s.statusWord_getLsbD]
    by_cases bit : i = 13
    · rw [bit, h]; rfl
    · simp [bit]

/-! The register file -/

/-- A write of another register leaves the reading of the status register alone. -/
theorem State.read_sr_write {s : State} {r : Reg} (v : Word) (h : r ≠ .sr) : (s.write r v).read .sr = s.read .sr := by
  cases r with
  | sr => exact absurd rfl h
  | r1 | r2 | r3 | r4 | r5 | r6 | r7 | lh | ll | ah | al | sh | sl | ph | pl => rfl

theorem State.write_frame {s : State} {r : Reg} (v : Word) (h : r ≠ .sr) :
    s.write r v = { s with gen := (s.write r v).gen, ph := (s.write r v).ph, pl := (s.write r v).pl } := by
  cases r with
  | sr => exact absurd rfl h
  | r1 | r2 | r3 | r4 | r5 | r6 | r7 | lh | ll | ah | al | sh | sl | ph | pl => rfl

theorem addressOf_toNat (high low : Word) : (addressOf high low).toNat = (high.toNat % 256) * 65536 + low.toNat := by
  rw [addressOf, toNat_append_eq_add, BitVec.extractLsb'_toNat]
  simp only [Nat.shiftRight_zero]
  omega

/-- Settles O9. -/
theorem highRegisterStorage : Obligations.HighRegisterStorage := by
  constructor
  · intro s r v other t
    refine ⟨s.read_write_same r v other, fun q hq => ?_, State.write_frame v other⟩
    by_cases status : q = .sr
    · rw [status]; exact State.read_sr_write v other
    · exact s.read_write_other r q v hq status
  · intro v w low
    exact ⟨congrArg (· ++ low), addressOf_toNat v low⟩

end Sys2Proof.Machine
end

section
/-! The condition field (rules R99, R150, R151), and how an instruction ends: its condition fails, its body completes,
faults or is refused. -/

namespace Sys2Proof.Machine

/-! How an instruction ends -/

section
variable {c : Cond} {s t : State} {body : State → Except Stop State}

theorem runInstr_completes (h : s.executes c) (hb : body s.advance = .ok t) : runInstr c s body = .next t := by
  obtain ⟨holds, untraced⟩ := h
  rw [runInstr_run holds, hb, finish_ok untraced]

variable (holds : condHolds c (srFlags s.sr) = true)
include holds

theorem runInstr_traced (traced : s.tracing = true) (hb : body s.advance = .ok t) :
    runInstr c s body = takeFault t t.pc ⟨.instructionTrace, 5, 0⟩ := by
  rw [runInstr_run holds, hb, finish_traced traced]

theorem runInstr_raises {f : FaultInfo} (hb : body s.advance = .error (.raise f)) :
    runInstr c s body = takeFault s s.pc f := by
  rw [runInstr_run holds, hb, finish_raise]

theorem runInstr_refuses {r : Refusal} (hb : body s.advance = .error (.refuse r)) :
    runInstr c s body = .refused r := by
  rw [runInstr_run holds, hb, finish_refuse]

end

/-- An instruction whose condition fails only advances the program counter, whatever its body would do (rule R151). -/
theorem exec_skip {i : Instr} {s : State} (h : condHolds i.cond (srFlags s.sr) = false) :
    exec i s = finish s (.ok s.advance) := by
  obtain ⟨body, run, -⟩ := exec_body i s
  rw [run, runInstr_skip h]

/-! The conditions after a comparison -/

/-- The signed difference wraps modulo 2^16 as the unsigned one does. -/
theorem subFlags_result_toInt (a b : Word) (bin : Bool) :
    (subFlags a b bin).1.toInt = (a.toInt - b.toInt - bin.toNat).bmod (2 ^ 16) := by
  rw [subFlags, BitVec.toInt_ofInt, BitVec.toInt_eq_toNat_bmod a, BitVec.toInt_eq_toNat_bmod b]
  simp only [Int.bmod_def]
  omega

/-- An overflow of a difference shows in the signs. -/
theorem subFlags_v_iff_signs (a b : Word) (bin : Bool) : (subFlags a b bin).2.v = true ↔
    a.getLsbD 15 ≠ b.getLsbD 15 ∧ (subFlags a b bin).1.getLsbD 15 ≠ a.getLsbD 15 := by
  have wrapped := subFlags_result_toInt a b bin
  have ha := And.intro (BitVec.le_toInt a) (BitVec.toInt_lt (x := a))
  have hb := And.intro (BitVec.le_toInt b) (BitVec.toInt_lt (x := b))
  have hbin := Bool.toNat_le bin
  rw [subFlags_v_iff]
  simp only [getLsbD_fifteen_eq_decide_neg, decide_eq_decide, ne_eq]
  generalize (subFlags a b bin).1.toInt = r at wrapped ⊢
  rw [Int.bmod_def] at wrapped
  split at wrapped <;> omega

section
variable (a b : Word)

theorem compare_z_iff : (subFlags a b false).2.z = true ↔ a = b := by
  rw [subFlags_z_iff, ← BitVec.toNat_inj, ← BitVec.toNat_inj, ← Int.natCast_inj, subFlags_result_toNat]
  simp only [BitVec.ofNat_eq_ofNat, BitVec.toNat_ofNat, Bool.toNat_false]
  omega

theorem compare_c_iff : (subFlags a b false).2.c = true ↔ b.toNat ≤ a.toNat := subFlags_c_iff a b false

/-- The sign of a difference, corrected by the overflow, is that of the exact difference. -/
theorem compare_n_ne_v_iff : ((subFlags a b false).2.n != (subFlags a b false).2.v) = true ↔ a.toInt < b.toInt := by
  have wrapped := subFlags_result_toInt a b false
  have ha := And.intro (BitVec.le_toInt a) (BitVec.toInt_lt (x := a))
  have hb := And.intro (BitVec.le_toInt b) (BitVec.toInt_lt (x := b))
  have overflow := subFlags_v_iff a b false
  rw [bne_iff_ne, ne_eq, Bool.eq_iff_iff, overflow, subFlags_n, getLsbD_fifteen_eq_decide_neg, decide_eq_true_iff]
  generalize (subFlags a b false).1.toInt = r at wrapped ⊢
  rw [Int.bmod_def, Bool.toNat_false] at wrapped
  rw [Bool.toNat_false]
  split at wrapped <;> omega

end

/-- Settles O10. -/
theorem conditionDecides : Obligations.ConditionDecides := by
  refine ⟨?_, decodeWord_cond, ?_, ?_⟩
  · intro v c n z holds
    refine ⟨rfl, rfl, rfl, rfl, rfl, rfl, rfl, rfl, rfl, rfl, rfl, rfl, rfl, rfl, rfl, rfl⟩
  · intro i s fails untraced
    rw [exec_skip fails, finish_ok untraced]
    rfl
  · intro a b c holds
    have notLess : ((subFlags a b false).2.n == (subFlags a b false).2.v) = true ↔ ¬ a.toInt < b.toInt := by
      rw [← compare_n_ne_v_iff, bne, Bool.not_eq_true', Bool.not_eq_false]
    have unsigned : a = b ↔ a.toNat = b.toNat := BitVec.toNat_inj.symm
    have signed : a = b ↔ a.toInt = b.toInt := BitVec.toInt_inj.symm
    simp only [holds, condHolds, aluResult, Bool.and_eq_true, Bool.or_eq_true, Bool.not_eq_true', ← Bool.not_eq_true,
      compare_z_iff, compare_c_iff, compare_n_ne_v_iff, notLess, true_and]
    refine ⟨?_, ?_, ?_, ?_, ?_, ?_⟩
    · omega
    · rw [unsigned]; omega
    · rw [unsigned]; omega
    · omega
    · rw [signed]; omega
    · rw [signed]; omega

end Sys2Proof.Machine
end

section
/-! The ALU instructions (rules R153 to R156, R170 to R224, R300, R309 to R311). The template of rule R177 has three
outcomes: AF = 11 is refused, then a high destination in protected mode faults, and otherwise it completes. -/

namespace Sys2Proof.Machine

/-! The closed form of the ALU functions -/

theorem addFlags_eq_closedSum (a b : Word) (cin : Bool) : addFlags a b cin = closedSum a b cin := by
  have result : (addFlags a b cin).1 = a + b + (if cin then 1 else 0) := by
    refine BitVec.eq_of_toNat_eq ?_
    rw [addFlags_result_toNat]
    cases cin <;> simp [BitVec.toNat_add]
  have carry : (addFlags a b cin).2.c = decide (0x10000 ≤ a.toNat + b.toNat + cin.toNat) := by
    rw [Bool.eq_iff_iff, addFlags_c_iff, decide_eq_true_iff]; rfl
  have overflow : (addFlags a b cin).2.v =
      (a.getLsbD 15 == b.getLsbD 15 && (addFlags a b cin).1.getLsbD 15 != a.getLsbD 15) := by
    rw [Bool.eq_iff_iff, addFlags_v_iff_signs, Bool.and_eq_true, beq_iff_eq, bne_iff_ne]
  have sign := addFlags_n a b cin
  rw [result] at overflow sign
  exact Prod.ext result (by
    rw [closedSum, ← overflow, ← sign, ← carry, ← result]; rfl)

theorem subFlags_eq_closedDifference (a b : Word) (bin : Bool) : subFlags a b bin = closedDifference a b bin := by
  have result : (subFlags a b bin).1 = a - b - (if bin then 1 else 0) := by
    refine BitVec.eq_of_toNat_eq ?_
    have difference := subFlags_result_toNat a b bin
    cases bin <;> simp only [BitVec.toNat_sub, Bool.toNat_false, Bool.toNat_true, if_true, Bool.false_eq_true,
      if_false, BitVec.ofNat_eq_ofNat, BitVec.toNat_ofNat] at difference ⊢ <;> omega
  have carry : (subFlags a b bin).2.c = decide (b.toNat + bin.toNat ≤ a.toNat) := by
    rw [Bool.eq_iff_iff, subFlags_c_iff, decide_eq_true_iff]
  have overflow : (subFlags a b bin).2.v =
      (a.getLsbD 15 != b.getLsbD 15 && (subFlags a b bin).1.getLsbD 15 != a.getLsbD 15) := by
    rw [Bool.eq_iff_iff, subFlags_v_iff_signs, Bool.and_eq_true, bne_iff_ne, bne_iff_ne]
  have sign := subFlags_n a b bin
  rw [result] at overflow sign
  exact Prod.ext result (by
    rw [closedDifference, ← overflow, ← sign, ← carry, ← result]; rfl)

theorem logicFlags_eq_closedLogic (res : Word) : logicFlags res = closedLogic res := by
  rw [logicFlags, closedLogic, msb_eq_getLsbD_fifteen]

theorem aluResult_eq_closedAlu (fn : AluFn) (a b : Word) (c : Bool) : aluResult fn a b c = closedAlu fn a b c := by
  cases fn with
  | add | adc => exact addFlags_eq_closedSum a b _
  | sub | sbc => exact subFlags_eq_closedDifference a b _
  | and | orr | xor => exact logicFlags_eq_closedLogic _

/-! The template of rule R177 -/

theorem setFlags_eq (sr : Word) (f : Flags) : setFlags sr f = (sr &&& 0xFFF0) ||| f.bits.setWidth 16 := by
  have mask : ∀ j < 16, (0xFFF0 : Word).getLsbD j = decide (4 ≤ j) := by decide
  refine BitVec.eq_of_getLsbD_eq fun i hi => ?_
  rw [BitVec.getLsbD_or, BitVec.getLsbD_and, mask i hi, BitVec.getLsbD_setWidth]
  by_cases low : i < 4
  · simp only [setFlags, BitVec.getLsbD_append, low, if_true]
    simp [hi, show ¬ 4 ≤ i by omega]
  · rw [setFlags_getLsbD sr f i (by omega), BitVec.getLsbD_of_ge f.bits i (by omega)]
    simp [show 4 ≤ i by omega]

theorem State.updateFlags_eq {s : State} {af : FlagSource} (alu shifter : Flags) (h : af ≠ .reserved) :
    s.updateFlags af alu shifter = .ok (s.flagged af alu shifter) := by
  cases af with
  | keep => rfl
  | alu | shift => simp only [State.updateFlags, setFlags_eq]; rfl
  | reserved => contradiction

/-- The flags of the shifter as `State.aluNext` writes them. -/
theorem shiftFlags_eq (kind : ShiftType) (v : Word) (out : ShiftOut) (old : Flags) :
    shiftFlags kind v out old =
      { z := out.res == 0, n := out.res.getLsbD 15, c := out.cout.getD old.c,
        v := if kind = .asl then v.getLsbD 15 != out.res.getLsbD 15 else old.v } := by
  simp only [shiftFlags, msb_eq_getLsbD_fifteen]

section
variable {s : State} {fn : AluFn} {dst : Option Reg} {af : FlagSource}

theorem aluStep_completes (kind : ShiftType) (v : Word) (a : ShiftOut) (b : Word) (haf : af ≠ .reserved)
    (allowed : s.forbidsBack dst = false) :
    aluStep fn dst af kind v a b s = .ok (s.aluNext fn dst af kind v a b) := by
  simp only [aluStep, State.updateFlags_eq _ _ haf, allowed, shiftFlags_eq, aluResult_eq_closedAlu]
  rfl

theorem aluStep_violates (kind : ShiftType) (v : Word) (a : ShiftOut) (b : Word) (haf : af ≠ .reserved)
    (forbidden : s.forbidsBack dst = true) :
    aluStep fn dst af kind v a b s = .error (.raise privilegeViolation) := by
  simp only [aluStep, State.updateFlags_eq _ _ haf, forbidden]
  rfl

theorem aluStep_refuses (kind : ShiftType) (v : Word) (a : ShiftOut) (b : Word) (haf : af = .reserved) :
    aluStep fn dst af kind v a b s = .error (.refuse .reservedFlagSource) := by
  subst haf; rfl

end

/-! The template behind the shifter, which the short and the register format share -/

/-- An ALU instruction whose first operand passes through the shifter. -/
def shiftedAlu (fn : AluFn) (dst : Option Reg) (af : FlagSource) (sh : Shift) (v b : Word) (s : State) :
    Except Stop State := do
  let a ← s.shifted sh v
  aluStep fn dst af sh.kind v a b s

theorem aluShortBody_eq (fn : AluFn) (save : Bool) (f : ShortForm) (s : State) :
    aluShortBody fn save f s =
      shiftedAlu fn (saveTo save f.reg) f.af f.shift (s.read f.reg) (s.extend8 f.imm) s := rfl

theorem aluRegBody_eq (fn : AluFn) (save : Bool) (f : RegForm FlagSource) (s : State) :
    aluRegBody fn save f s = shiftedAlu fn (saveTo save f.r1) f.af f.shift (s.read f.r2) (s.read f.r3) s := rfl

theorem State.shifted_eq {s : State} {sh : Shift} {v : Word} {out : ShiftOut}
    (h : shiftOutput sh.kind v (s.shiftCount sh.count) (srFlags s.sr).c = some out) : s.shifted sh v = .ok out := by
  simp only [State.shifted, h]

/-- Every shift but the reserved one hands an operand on. -/
theorem State.shifted_exists {sh : Shift} (s : State) (v : Word) (h : sh.kind ≠ .reserved) :
    ∃ a, shiftOutput sh.kind v (s.shiftCount sh.count) (srFlags s.sr).c = some a ∧ s.shifted sh v = .ok a := by
  obtain ⟨a, out⟩ := shiftOutput_some v (s.shiftCount sh.count) (srFlags s.sr).c h
  exact ⟨a, out, State.shifted_eq out⟩

/-- The reserved shift type has no output (rule R140). -/
theorem shiftOutput_reserved (v n : Word) (c : Bool) : shiftOutput .reserved v n c = none :=
  if_pos (.inr (.inr rfl))

section
variable {s : State} {fn : AluFn} {dst : Option Reg} {af : FlagSource} {sh : Shift} {v b : Word} {a : ShiftOut}

theorem shiftedAlu_completes (out : s.shifted sh v = .ok a) (haf : af ≠ .reserved)
    (allowed : s.forbidsBack dst = false) :
    shiftedAlu fn dst af sh v b s = .ok (s.aluNext fn dst af sh.kind v a b) := by
  rw [shiftedAlu, out]; exact aluStep_completes sh.kind v a b haf allowed

theorem shiftedAlu_violates (hsh : sh.kind ≠ .reserved) (haf : af ≠ .reserved)
    (forbidden : s.forbidsBack dst = true) :
    shiftedAlu fn dst af sh v b s = .error (.raise privilegeViolation) := by
  obtain ⟨a, -, out⟩ := s.shifted_exists v hsh
  rw [shiftedAlu, out]; exact aluStep_violates sh.kind v a b haf forbidden

theorem shiftedAlu_refuses_source (hsh : sh.kind ≠ .reserved) (haf : af = .reserved) :
    shiftedAlu fn dst af sh v b s = .error (.refuse .reservedFlagSource) := by
  obtain ⟨a, -, out⟩ := s.shifted_exists v hsh
  rw [shiftedAlu, out]; exact aluStep_refuses sh.kind v a b haf

theorem shiftedAlu_refuses_shift (hsh : sh.kind = .reserved) :
    shiftedAlu fn dst af sh v b s = .error (.refuse .reservedShiftType) := by
  simp only [shiftedAlu, State.shifted, hsh, shiftOutput_reserved]
  rfl

end

/-! LOAD of a value -/

section
variable {s : State} {dst : Reg} {af : FlagSource} {kind : ShiftType} (v : Word)

theorem moveBody_completes (haf : af ≠ .reserved) (allowed : s.forbidsWrite dst = false) :
    moveBody dst af v s = .ok (s.write dst v) := by
  simp only [moveBody, refuseIf_ne _ haf, allowed]
  rfl

theorem moveBody_violates (haf : af ≠ .reserved) (forbidden : s.forbidsWrite dst = true) :
    moveBody dst af v s = .error (.raise privilegeViolation) := by
  simp only [moveBody, refuseIf_ne _ haf, forbidden]
  rfl

theorem moveBody_refuses (haf : af = .reserved) :
    moveBody dst af v s = .error (.refuse .reservedFlagSource) := by
  subst haf; rfl

theorem moveUnshiftedBody_unshifted (h : kind = .none) :
    moveUnshiftedBody dst af kind v s = moveBody dst af v s := by
  subst h; rfl

theorem moveUnshiftedBody_refuses (h : kind ≠ .none) :
    moveUnshiftedBody dst af kind v s = .error (.refuse .loadWithShift) := by
  simp only [moveUnshiftedBody, bne_iff_ne.mpr h]
  rfl

end

/-- Where the platform's mode is the hardware pattern, an undocumented opcode runs as the others do (rule R178). -/
theorem runInstr_undocumented {s : State} (h : s.platform.undocumented = .hardwarePattern) (c : Cond)
    (body : State → Except Stop State) : runInstr c s (undocumented body) = runInstr c s body := by
  simp only [runInstr, undocumented_pattern (s := s.advance) h]

/-! The immediate format -/

/-- Settles O15. -/
theorem immediateAluResult : Obligations.ImmediateAluResult := by
  intro f s runs haf allowed x next
  have saves (fn : AluFn) : runInstr f.cond s (aluImmBody fn true f) = next fn :=
    runInstr_completes runs (aluStep_completes _ _ _ _ haf allowed)
  exact ⟨saves .add, saves .adc, saves .sub, saves .sbc, saves .and, saves .orr, saves .xor⟩

/-- Settles O16. -/
theorem immediateTestFlags : Obligations.ImmediateTestFlags := by
  intro f s runs haf x next
  have tests (fn : AluFn) : runInstr f.cond s (aluImmBody fn false f) = next fn :=
    runInstr_completes runs (aluStep_completes _ _ _ _ haf rfl)
  refine ⟨tests .sub, tests .and, tests .xor, fun pattern => ?_⟩
  have tests (fn : AluFn) : runInstr f.cond s (undocumented (aluImmBody fn false f)) = next fn :=
    (runInstr_undocumented pattern _ _).trans (tests fn)
  exact ⟨tests .add, tests .adc, tests .sbc, tests .orr⟩

/-! The short immediate and the register format -/

theorem State.extend8_zero {s : State} (b : BitVec 8) (h : s.platform.imm8 = .zero) :
    (s.extend8 b).toNat = b.toNat := by
  simp only [State.extend8, h, BitVec.toNat_setWidth]
  omega

theorem State.extend8_sign {s : State} (b : BitVec 8) (h : s.platform.imm8 = .sign) :
    (s.extend8 b).toInt = b.toInt := by
  simp only [State.extend8, h]
  exact BitVec.toInt_signExtend_of_le (by decide)

/-- Settles O17. -/
theorem shortAluResult : Obligations.ShortAluResult := by
  refine ⟨fun s b => ⟨State.extend8_zero b, State.extend8_sign b⟩, ?_⟩
  intro f s runs haf hsh allowed x
  obtain ⟨a, output, shifted⟩ := s.advance.shifted_exists x hsh
  refine ⟨a, output, ?_⟩
  intro next
  have saves (fn : AluFn) : runInstr f.cond s (aluShortBody fn true f) = next fn :=
    runInstr_completes runs (shiftedAlu_completes shifted haf allowed)
  exact ⟨saves .add, saves .adc, saves .sub, saves .sbc, saves .and, saves .orr, saves .xor⟩

/-- Settles O18. -/
theorem shortTestFlags : Obligations.ShortTestFlags := by
  intro f s runs haf hsh x
  obtain ⟨a, output, shifted⟩ := s.advance.shifted_exists x hsh
  refine ⟨a, output, ?_⟩
  intro next
  have tests (fn : AluFn) : runInstr f.cond s (aluShortBody fn false f) = next fn :=
    runInstr_completes runs (shiftedAlu_completes shifted haf rfl)
  refine ⟨tests .sub, tests .and, tests .xor, fun pattern => ?_⟩
  have tests (fn : AluFn) : runInstr f.cond s (undocumented (aluShortBody fn false f)) = next fn :=
    (runInstr_undocumented pattern _ _).trans (tests fn)
  exact ⟨tests .add, tests .adc, tests .sbc, tests .orr⟩

/-- Settles O19. -/
theorem registerAluResult : Obligations.RegisterAluResult := by
  intro f s runs haf hsh allowed x
  obtain ⟨a, output, shifted⟩ := s.advance.shifted_exists x hsh
  refine ⟨a, output, ?_⟩
  intro next
  have saves (fn : AluFn) : runInstr f.cond s (aluRegBody fn true f) = next fn :=
    runInstr_completes runs (shiftedAlu_completes shifted haf allowed)
  exact ⟨saves .add, saves .adc, saves .sub, saves .sbc, saves .and, saves .orr, saves .xor⟩

/-- Settles O20. -/
theorem registerTestFlags : Obligations.RegisterTestFlags := by
  intro f s runs haf hsh x
  obtain ⟨a, output, shifted⟩ := s.advance.shifted_exists x hsh
  refine ⟨a, output, ?_⟩
  intro next
  have tests (fn : AluFn) : runInstr f.cond s (aluRegBody fn false f) = next fn :=
    runInstr_completes runs (shiftedAlu_completes shifted haf rfl)
  refine ⟨tests .sub, tests .and, tests .xor, fun pattern => ?_⟩
  have tests (fn : AluFn) : runInstr f.cond s (undocumented (aluRegBody fn false f)) = next fn :=
    (runInstr_undocumented pattern _ _).trans (tests fn)
  exact ⟨tests .add, tests .adc, tests .sbc, tests .orr⟩

/-- Settles O21. -/
theorem registerLoads : Obligations.RegisterLoads := by
  refine ⟨fun f s runs haf allowed => ?_, fun f s runs haf unshifted allowed => ?_,
    fun f s runs haf unshifted allowed => ?_⟩
  · exact runInstr_completes runs (moveBody_completes _ haf allowed)
  · exact runInstr_completes runs ((moveUnshiftedBody_unshifted _ unshifted).trans (moveBody_completes _ haf allowed))
  · exact runInstr_completes runs ((moveUnshiftedBody_unshifted _ unshifted).trans (moveBody_completes _ haf allowed))

/-- Settles O22: each is an ALU instruction with AF = 10. -/
theorem shiftMetaInstructions : Obligations.ShiftMetaInstructions := by
  have source : FlagSource.shift ≠ .reserved := by decide
  refine ⟨?_, ?_, ?_⟩
  all_goals
    intro f s runs hsh allowed x
    obtain ⟨a, output, shifted⟩ := s.advance.shifted_exists x hsh
  · exact ⟨a, output, runInstr_completes runs (shiftedAlu_completes shifted source allowed)⟩
  · exact ⟨a, output, runInstr_completes runs (shiftedAlu_completes shifted source allowed)⟩
  · have zero : s.advance.extend8 0 = 0 := by simp only [State.extend8]; split <;> rfl
    refine ⟨a, output, runInstr_completes runs ?_⟩
    rw [aluShortBody_eq, ← zero]
    exact shiftedAlu_completes shifted source allowed

/-- Settles O23: NOOP writes the status register as it reads. -/
theorem noopOnlyAdvances : Obligations.NoopOnlyAdvances := by
  intro s untraced bit13
  have sum : (closedAlu .add (s.advance.read .sr) 0 (srFlags s.sr).c).1 = s.advance.read .sr := by
    simp [closedAlu, closedSum]
  have next : s.advance.aluNext .add (some .sr) .keep .none (s.advance.read .sr) ⟨s.advance.read .sr, none⟩ 0 =
      s.advance :=
    congrArg s.advance.withSr ((congrArg _ sum).trans (State.filterSr_read_sr (s := s.advance) bit13))
  have allowed : s.advance.forbidsBack (some .sr) = false := Bool.and_false _
  exact runInstr_completes ⟨rfl, untraced⟩
    ((aluStep_completes _ _ _ _ (by decide) allowed).trans (congrArg _ next))

/-- Settles O44: a traced ADDI completes first, and a failed condition leaves the advance. -/
theorem traceFaultTaken : Obligations.TraceFaultTaken := by
  constructor
  · intro f s holds traced haf allowed x u
    exact runInstr_traced holds traced (aluStep_completes _ _ _ _ haf allowed)
  · intro i s fails traced
    rw [exec_skip fails, finish_traced traced]
    rfl

end Sys2Proof.Machine
end

section
/-! STOR and LOAD (rules R60 to R71, R230 to R242). The sums and the accesses have two outcomes each; from these
follow, for each of the four bodies, what it does when it completes and the fault of each test it makes. -/

namespace Sys2Proof.Machine

/-! Address arithmetic -/

section
variable {s : State} {low off : Word}

theorem State.segAdd_inside (h : s.staysInside low off) : s.segAdd low off.toInt = .ok (low + off) := by
  have sum : BitVec.ofInt 16 ((low.toNat : Int) + off.toInt) = low + off := by
    rw [BitVec.ofInt_add, BitVec.ofInt_natCast, BitVec.ofNat_toNat, BitVec.setWidth_eq, BitVec.ofInt_toInt]
  rw [State.segAdd, if_neg, sum]
  rintro ⟨outside, traps⟩
  rcases h with untrapped | inside
  · exact absurd traps (by simp [untrapped])
  · omega

theorem State.segAdd_outside (h : ¬ s.staysInside low off) :
    s.segAdd low off.toInt = .error (.raise addressOverflow) := by
  rw [State.staysInside, not_or, Bool.not_eq_false] at h
  exact if_pos ⟨by omega, h.1⟩

theorem State.effective_inside (pair : Pair) (h : s.staysInside low off) :
    s.effective pair low off = .ok (addressOf (s.read (Pair.high pair)) (low + off)) := by
  rw [State.effective, State.segAdd_inside h]; rfl

theorem State.effective_outside (pair : Pair) (h : ¬ s.staysInside low off) :
    s.effective pair low off = .error (.raise addressOverflow) := by
  rw [State.effective, State.segAdd_outside h]; rfl

/-- The decrement of rule R71 is the sum with -1. -/
theorem State.segAdd_decrement (h : s.staysInside low 0xFFFF) : s.segAdd low (-1) = .ok (low - 1) := by
  rw [BitVec.sub_eq_add_neg]
  exact State.segAdd_inside h

theorem State.segAdd_decrement_outside (h : ¬ s.staysInside low 0xFFFF) :
    s.segAdd low (-1) = .error (.raise addressOverflow) := State.segAdd_outside h

theorem State.segAdd_increment (h : s.staysInside low 1) : s.segAdd low 1 = .ok (low + 1) := State.segAdd_inside h

theorem State.segAdd_increment_outside (h : ¬ s.staysInside low 1) :
    s.segAdd low 1 = .error (.raise addressOverflow) := State.segAdd_outside h

end

/-- Settles O28. -/
theorem addressArithmetic : Obligations.AddressArithmetic := by
  intro s k low off
  exact ⟨fun inside => ⟨State.segAdd_inside inside, State.effective_inside k inside⟩,
    fun outside => ⟨State.segAdd_outside outside, State.effective_outside k outside⟩⟩

/-! Accesses -/

section
variable {s : State} {ea : Address}

theorem State.loadWord_answered (h : s.busError ea = false) : s.loadWord ea = .ok (s.busRead .data ea) :=
  if_neg (by simp [h])

theorem State.loadWord_refused (h : s.busError ea = true) : s.loadWord ea = .error (.raise ⟨.bus, 4, ea⟩) := if_pos h

theorem State.storeWord_answered (v : Word) (h : s.busError ea = false) : s.storeWord ea v = .ok (s.busWrite ea v) :=
  if_neg (by simp [h])

theorem State.storeWord_refused (v : Word) (h : s.busError ea = true) :
    s.storeWord ea v = .error (.raise ⟨.bus, 4, ea⟩) := if_pos h

/-- What a bus write leaves (rule R63; log entry 6). -/
theorem State.storedAt_busWrite (v : Word) (canonical : Memory.wf s.mem = true) :
    storedAt s (s.busWrite ea v) ea v := by
  refine ⟨fun ram => ?_, s.busWrite_dropped v⟩
  rw [s.busWrite_ram v ram]
  refine ⟨rfl, Memory.word_setWord_same canonical ea v, fun b notHigh notLow => ?_⟩
  rw [State.withMem_mem, Memory.byte_setWord canonical, if_neg notLow, if_neg notHigh]

end

/-! The four bodies -/

section
variable {s : State} {reg : Reg} {pair : Pair} {off : Word} {sh : Shift}

/-- The effective address of STOR and LOAD, from the low word that the sum starts with (rules R68, R231). -/
def State.dataAddress (s : State) (pair : Pair) (low off : Word) (sh : Shift) : Address :=
  addressOf (s.read (Pair.high pair)) (low + s.offsetWord sh off)

/-- The immediate forms have no shift, so the offset is the constant itself. -/
theorem State.dataAddress_noShift (s : State) (pair : Pair) (low off : Word) :
    s.dataAddress pair low off noShift = addressOf (s.read (Pair.high pair)) (low + off) := by
  rw [State.dataAddress, State.offsetWord_noShift]

/-! The shift type is tested first, the destination next (log entries 28 and 30) -/

theorem storeIndirect_refuses (h : sh.kind = .reserved) :
    storeIndirect reg pair off sh s = .error (.refuse .reservedShiftType) := by
  rw [storeIndirect, h]; rfl

theorem storePreDecrement_refuses (h : sh.kind = .reserved) :
    storePreDecrement reg pair off sh s = .error (.refuse .reservedShiftType) := by
  rw [storePreDecrement, h]; rfl

theorem loadIndirect_refuses (h : sh.kind = .reserved) :
    loadIndirect reg pair off sh s = .error (.refuse .reservedShiftType) := by
  rw [loadIndirect, h]; rfl

theorem loadPostIncrement_refuses (h : sh.kind = .reserved) :
    loadPostIncrement reg pair off sh s = .error (.refuse .reservedShiftType) := by
  rw [loadPostIncrement, h]; rfl

variable (hsh : sh.kind ≠ .reserved)
include hsh

theorem loadIndirect_violates (forbidden : s.forbidsWrite reg = true) :
    loadIndirect reg pair off sh s = .error (.raise privilegeViolation) := by
  rw [loadIndirect, refuseIf_ne _ hsh, forbidden]; rfl

theorem loadPostIncrement_violates (forbidden : s.forbidsWrite reg = true) :
    loadPostIncrement reg pair off sh s = .error (.raise privilegeViolation) := by
  rw [loadPostIncrement, refuseIf_ne _ hsh, forbidden]; rfl

/-! Then the sums, which may leave their segment -/

theorem storeIndirect_overflows (h : ¬ s.staysInside (s.read (Pair.low pair)) (s.offsetWord sh off)) :
    storeIndirect reg pair off sh s = .error (.raise addressOverflow) := by
  rw [storeIndirect, refuseIf_ne _ hsh, State.effective_outside pair h]; rfl

theorem storePreDecrement_overflows (h : ¬ s.staysInside (s.read (Pair.low pair)) 0xFFFF ∨
      ¬ s.staysInside (s.read (Pair.low pair) - 1) (s.offsetWord sh off)) :
    storePreDecrement reg pair off sh s = .error (.raise addressOverflow) := by
  rw [storePreDecrement, refuseIf_ne _ hsh]
  by_cases decrement : s.staysInside (s.read (Pair.low pair)) 0xFFFF
  · rw [State.segAdd_decrement decrement, ok_bind, ok_bind,
      State.effective_outside pair (h.resolve_left (not_not_intro decrement))]
    rfl
  · rw [State.segAdd_decrement_outside decrement]; rfl

section
variable (allowed : s.forbidsWrite reg = false)
include allowed

theorem loadIndirect_overflows (h : ¬ s.staysInside (s.read (Pair.low pair)) (s.offsetWord sh off)) :
    loadIndirect reg pair off sh s = .error (.raise addressOverflow) := by
  rw [loadIndirect, refuseIf_ne _ hsh, allowed, State.effective_outside pair h]; rfl

theorem loadPostIncrement_overflows (h : ¬ s.staysInside (s.read (Pair.low pair)) (s.offsetWord sh off) ∨
      ¬ s.staysInside (s.read (Pair.low pair)) 1) :
    loadPostIncrement reg pair off sh s = .error (.raise addressOverflow) := by
  rw [loadPostIncrement, refuseIf_ne _ hsh, allowed, raiseIf_false, ok_bind, ok_bind]
  by_cases inside : s.staysInside (s.read (Pair.low pair)) (s.offsetWord sh off)
  · rw [State.effective_inside pair inside, ok_bind,
      State.segAdd_increment_outside (h.resolve_left (not_not_intro inside))]
    rfl
  · rw [State.effective_outside pair inside]; rfl

end

/-! Last the access, which the platform answers or refuses -/

section
variable (inside : s.staysInside (s.read (Pair.low pair)) (s.offsetWord sh off))
include inside

theorem storeIndirect_accesses : storeIndirect reg pair off sh s =
    s.storeWord (s.dataAddress pair (s.read (Pair.low pair)) off sh) (s.dataWord sh (s.read reg)) := by
  rw [storeIndirect, refuseIf_ne _ hsh, State.effective_inside pair inside]; rfl

theorem storeIndirect_completes (canonical : Memory.wf s.mem = true)
    (answered : s.busError (s.dataAddress pair (s.read (Pair.low pair)) off sh) = false) :
    ∃ t, storeIndirect reg pair off sh s = .ok t ∧
      storedAt s t (s.dataAddress pair (s.read (Pair.low pair)) off sh) (s.dataWord sh (s.read reg)) :=
  ⟨_, (storeIndirect_accesses hsh inside).trans (State.storeWord_answered _ answered),
    State.storedAt_busWrite _ canonical⟩

theorem storeIndirect_faults (refused : s.busError (s.dataAddress pair (s.read (Pair.low pair)) off sh) = true) :
    storeIndirect reg pair off sh s =
      .error (.raise ⟨.bus, 4, s.dataAddress pair (s.read (Pair.low pair)) off sh⟩) := by
  rw [storeIndirect_accesses hsh inside, State.storeWord_refused _ refused]

variable (allowed : s.forbidsWrite reg = false)
include allowed

theorem loadIndirect_accesses : loadIndirect reg pair off sh s =
    (s.loadWord (s.dataAddress pair (s.read (Pair.low pair)) off sh) >>= fun v =>
      .ok (s.write reg (s.dataWord sh v))) := by
  rw [loadIndirect, refuseIf_ne _ hsh, allowed, State.effective_inside pair inside]; rfl

theorem loadIndirect_completes
    (answered : s.busError (s.dataAddress pair (s.read (Pair.low pair)) off sh) = false) :
    loadIndirect reg pair off sh s = .ok (s.write reg
      (s.dataWord sh (s.busRead .data (s.dataAddress pair (s.read (Pair.low pair)) off sh)))) := by
  rw [loadIndirect_accesses hsh inside allowed, State.loadWord_answered answered]; rfl

theorem loadIndirect_faults (refused : s.busError (s.dataAddress pair (s.read (Pair.low pair)) off sh) = true) :
    loadIndirect reg pair off sh s =
      .error (.raise ⟨.bus, 4, s.dataAddress pair (s.read (Pair.low pair)) off sh⟩) := by
  rw [loadIndirect_accesses hsh inside allowed, State.loadWord_refused refused]; rfl

variable (increment : s.staysInside (s.read (Pair.low pair)) 1)
include increment

theorem loadPostIncrement_accesses : loadPostIncrement reg pair off sh s =
    (s.loadWord (s.dataAddress pair (s.read (Pair.low pair)) off sh) >>= fun v =>
      .ok ((s.write reg (s.dataWord sh v)).write (Pair.low pair) (s.read (Pair.low pair) + 1))) := by
  rw [loadPostIncrement, refuseIf_ne _ hsh, allowed, State.effective_inside pair inside,
    State.segAdd_increment increment]
  rfl

theorem loadPostIncrement_completes
    (answered : s.busError (s.dataAddress pair (s.read (Pair.low pair)) off sh) = false) :
    loadPostIncrement reg pair off sh s = .ok ((s.write reg
      (s.dataWord sh (s.busRead .data (s.dataAddress pair (s.read (Pair.low pair)) off sh)))).write
        (Pair.low pair) (s.read (Pair.low pair) + 1)) := by
  rw [loadPostIncrement_accesses hsh inside allowed increment, State.loadWord_answered answered]; rfl

theorem loadPostIncrement_faults (refused : s.busError (s.dataAddress pair (s.read (Pair.low pair)) off sh) = true) :
    loadPostIncrement reg pair off sh s =
      .error (.raise ⟨.bus, 4, s.dataAddress pair (s.read (Pair.low pair)) off sh⟩) := by
  rw [loadPostIncrement_accesses hsh inside allowed increment, State.loadWord_refused refused]; rfl

end

section
variable (decrement : s.staysInside (s.read (Pair.low pair)) 0xFFFF)
  (inside : s.staysInside (s.read (Pair.low pair) - 1) (s.offsetWord sh off))
include decrement inside

theorem storePreDecrement_accesses : storePreDecrement reg pair off sh s =
    (s.storeWord (s.dataAddress pair (s.read (Pair.low pair) - 1) off sh) (s.dataWord sh (s.read reg)) >>= fun t =>
      .ok (t.write (Pair.low pair) (s.read (Pair.low pair) - 1))) := by
  rw [storePreDecrement, refuseIf_ne _ hsh, State.segAdd_decrement decrement, ok_bind, ok_bind,
    State.effective_inside pair inside]
  rfl

theorem storePreDecrement_completes (canonical : Memory.wf s.mem = true)
    (answered : s.busError (s.dataAddress pair (s.read (Pair.low pair) - 1) off sh) = false) :
    ∃ t, storePreDecrement reg pair off sh s = .ok (t.write (Pair.low pair) (s.read (Pair.low pair) - 1)) ∧
      storedAt s t (s.dataAddress pair (s.read (Pair.low pair) - 1) off sh) (s.dataWord sh (s.read reg)) := by
  refine ⟨_, ?_, State.storedAt_busWrite _ canonical⟩
  rw [storePreDecrement_accesses hsh decrement inside, State.storeWord_answered _ answered]; rfl

theorem storePreDecrement_faults
    (refused : s.busError (s.dataAddress pair (s.read (Pair.low pair) - 1) off sh) = true) :
    storePreDecrement reg pair off sh s =
      .error (.raise ⟨.bus, 4, s.dataAddress pair (s.read (Pair.low pair) - 1) off sh⟩) := by
  rw [storePreDecrement_accesses hsh decrement inside, State.storeWord_refused _ refused]; rfl

end

end

/-! The statements. An immediate form is its body without a shift. -/

theorem noShift_kind : noShift.kind ≠ .reserved := by decide

namespace Settled

/-- Settles O24. -/
theorem storeIndirect : Obligations.StoreIndirect := by
  constructor
  · intro f s runs canonical low ea inside answered
    have completes := storeIndirect_completes (s := s.advance) (reg := f.reg) (pair := f.af) (off := f.imm) noShift_kind
    simp only [State.offsetWord_noShift, State.dataAddress_noShift, State.dataWord_noShift] at completes
    obtain ⟨t, body, stored⟩ := completes inside canonical answered
    exact ⟨t, runInstr_completes runs body, stored⟩
  · intro f s runs canonical hsh low off ea inside answered
    obtain ⟨t, body, stored⟩ := storeIndirect_completes (s := s.advance) (reg := f.r1) hsh inside canonical answered
    exact ⟨t, (exec_storIndR f s).trans (runInstr_completes runs body), stored⟩

/-- Settles O25. -/
theorem storePreDecrement : Obligations.StorePreDecrement := by
  constructor
  · intro f s runs canonical low ea decrement inside answered
    have completes :=
      storePreDecrement_completes (s := s.advance) (reg := f.reg) (pair := f.af) (off := f.imm) noShift_kind decrement
    simp only [State.offsetWord_noShift, State.dataAddress_noShift, State.dataWord_noShift] at completes
    obtain ⟨t, body, stored⟩ := completes inside canonical answered
    exact ⟨t, runInstr_completes runs body, stored⟩
  · intro f s runs canonical hsh low off ea decrement inside answered
    obtain ⟨t, body, stored⟩ :=
      storePreDecrement_completes (s := s.advance) (reg := f.r1) hsh decrement inside canonical answered
    exact ⟨t, (exec_storPreR f s).trans (runInstr_completes runs body), stored⟩

/-- Settles O26. -/
theorem loadIndirect : Obligations.LoadIndirect := by
  constructor
  · intro f s runs allowed low ea inside answered
    have completes := loadIndirect_completes (s := s.advance) (reg := f.reg) (pair := f.af) (off := f.imm) noShift_kind
    simp only [State.offsetWord_noShift, State.dataAddress_noShift, State.dataWord_noShift] at completes
    exact ⟨runInstr_completes runs (completes inside allowed answered), State.busRead_memory .data⟩
  · intro f s runs allowed hsh low off ea inside answered
    exact (exec_loadIndR f s).trans
      (runInstr_completes runs (loadIndirect_completes (s := s.advance) hsh inside allowed answered))

/-- Settles O27. -/
theorem loadPostIncrement : Obligations.LoadPostIncrement := by
  constructor
  · intro f s runs allowed low ea inside increment answered
    have completes :=
      loadPostIncrement_completes (s := s.advance) (reg := f.reg) (pair := f.af) (off := f.imm) noShift_kind
    simp only [State.offsetWord_noShift, State.dataAddress_noShift, State.dataWord_noShift] at completes
    exact runInstr_completes runs (completes inside allowed increment answered)
  · intro f s runs allowed hsh low off ea inside increment answered
    exact (exec_loadPostR f s).trans
      (runInstr_completes runs (loadPostIncrement_completes (s := s.advance) hsh inside allowed increment answered))

end Settled

/-- Settles O29: of the eight forms, each in the order of its tests. -/
theorem dataBusFault : Obligations.DataBusFault := by
  refine ⟨?_, ?_, ?_, ?_⟩
  · intro f s holds low ea inside refused
    have store := storeIndirect_faults (s := s.advance) (reg := f.reg) (pair := f.af) (off := f.imm) noShift_kind
    have load := loadIndirect_faults (s := s.advance) (reg := f.reg) (pair := f.af) (off := f.imm) noShift_kind
    have post := loadPostIncrement_faults (s := s.advance) (reg := f.reg) (pair := f.af) (off := f.imm) noShift_kind
    simp only [State.offsetWord_noShift, State.dataAddress_noShift] at store load post
    exact ⟨runInstr_raises holds (store inside refused), fun allowed =>
      ⟨runInstr_raises holds (load inside allowed refused), fun increment =>
        runInstr_raises holds (post inside allowed increment refused)⟩⟩
  · intro f s holds low ea decrement inside refused
    have store :=
      storePreDecrement_faults (s := s.advance) (reg := f.reg) (pair := f.af) (off := f.imm) noShift_kind decrement
    simp only [State.offsetWord_noShift, State.dataAddress_noShift] at store
    exact runInstr_raises holds (store inside refused)
  · intro f s holds hsh low off ea inside refused
    rw [exec_storIndR, exec_loadIndR, exec_loadPostR]
    exact ⟨runInstr_raises holds (storeIndirect_faults (s := s.advance) hsh inside refused), fun allowed =>
      ⟨runInstr_raises holds (loadIndirect_faults (s := s.advance) hsh inside allowed refused), fun increment =>
        runInstr_raises holds (loadPostIncrement_faults (s := s.advance) hsh inside allowed increment refused)⟩⟩
  · intro f s holds hsh low off ea decrement inside refused
    rw [exec_storPreR]
    exact runInstr_raises holds (storePreDecrement_faults (s := s.advance) hsh decrement inside refused)

end Sys2Proof.Machine
end

section
/-! LDEA, LJMP, RETS, BRAN, LJSR and BRSR (rules R250 to R263, R302, R303), and the segment overflow of every sum
(rules R68, R343). -/

namespace Sys2Proof.Machine

/-! The destination pair of LDEA (rule R97) -/

theorem ldeaPair_of_half {r : Reg} {d : Pair} (h : r = Pair.high d ∨ r = Pair.low d) : ldeaPair r = .ok d := by
  rcases h with rfl | rfl <;> cases d <;> rfl

theorem ldeaPair_of_no_half {r : Reg} (h : ∀ d, r ≠ Pair.high d ∧ r ≠ Pair.low d) :
    ldeaPair r = .error (.refuse .ldeaDestination) := by
  cases r with
  | sr | r1 | r2 | r3 | r4 | r5 | r6 | r7 => rfl
  | lh | ll => exact absurd (h .l) (by decide)
  | ah | al => exact absurd (h .a) (by decide)
  | sh | sl => exact absurd (h .s) (by decide)
  | ph | pl => exact absurd (h .p) (by decide)

/-! The four bodies: the privilege test, then the sum -/

section
variable {s : State} {src d : Pair} {off : Word} {dest : Reg}

theorem ldeaBody_refuses (h : ∀ d, dest ≠ Pair.high d ∧ dest ≠ Pair.low d) :
    ldeaBody dest src off s = .error (.refuse .ldeaDestination) := by
  rw [ldeaBody, ldeaPair_of_no_half h]; rfl

theorem ldeaBody_violates (hd : dest = Pair.high d ∨ dest = Pair.low d) (mode : s.isProtected = true) :
    ldeaBody dest src off s = .error (.raise privilegeViolation) := by
  rw [ldeaBody, ldeaPair_of_half hd, mode]; rfl

theorem ljsrBody_violates (mode : s.isProtected = true) :
    ljsrBody src off s = .error (.raise privilegeViolation) := by
  rw [ljsrBody, mode]; rfl

section
variable (h : ¬ s.staysInside (s.read (Pair.low src)) off)
include h

theorem ldeaBody_overflows (hd : dest = Pair.high d ∨ dest = Pair.low d) (mode : s.isProtected = false) :
    ldeaBody dest src off s = .error (.raise addressOverflow) := by
  rw [ldeaBody, ldeaPair_of_half hd, mode, State.segAdd_outside h]; rfl

theorem branBody_overflows : branBody src off s = .error (.raise addressOverflow) := by
  rw [branBody, State.segAdd_outside h]; rfl

theorem ljsrBody_overflows (mode : s.isProtected = false) :
    ljsrBody src off s = .error (.raise addressOverflow) := by
  rw [ljsrBody, mode, State.segAdd_outside h]; rfl

theorem brsrBody_overflows : brsrBody src off s = .error (.raise addressOverflow) := by
  rw [brsrBody, State.segAdd_outside h]; rfl

end

section
variable (h : s.staysInside (s.read (Pair.low src)) off)
include h

theorem ldeaBody_completes (hd : dest = Pair.high d ∨ dest = Pair.low d) (mode : s.isProtected = false) :
    ldeaBody dest src off s = .ok ((s.write (Pair.high d) (s.read (Pair.high src))).write (Pair.low d)
      (s.read (Pair.low src) + off)) := by
  rw [ldeaBody, ldeaPair_of_half hd, mode, State.segAdd_inside h]; rfl

theorem branBody_completes : branBody src off s = .ok { s with pl := s.read (Pair.low src) + off } := by
  rw [branBody, State.segAdd_inside h]; rfl

theorem ljsrBody_completes (mode : s.isProtected = false) :
    ljsrBody src off s = .ok { s with gen := { s.gen with lh := s.ph, ll := s.pl }
                                      ph := s.read (Pair.high src), pl := s.read (Pair.low src) + off } := by
  rw [ljsrBody, mode, State.segAdd_inside h]; rfl

theorem brsrBody_completes : brsrBody src off s =
    .ok { s with gen := { s.gen with ll := s.pl }, pl := s.read (Pair.low src) + off } := by
  rw [brsrBody, State.segAdd_inside h]; rfl

end

/-- RETS adds 0, which cannot leave the segment. -/
theorem State.staysInside_zero (s : State) (low : Word) : s.staysInside low 0 := by
  have bound := low.isLt
  have zero : (0 : Word).toInt = 0 := rfl
  exact .inr (by omega)

end

/-- Settles O31: LJMP and RETS are LDEA with destination `p`. -/
theorem loadEffectiveAddress : Obligations.LoadEffectiveAddress := by
  intro s d mode loaded
  have mode : s.advance.isProtected = false := mode
  have toP : Reg.ph = Pair.high .p ∨ Reg.ph = Pair.low .p := .inl rfl
  refine ⟨?_, ?_, ?_, ?_, ?_⟩
  · intro f runs hd low inside
    exact (exec_ldea f s).trans (runInstr_completes runs (ldeaBody_completes (s := s.advance) inside hd mode))
  · intro f runs hd low off inside
    exact (exec_ldeaR f s).trans (runInstr_completes runs (ldeaBody_completes (s := s.advance) inside hd mode))
  · rintro rfl f runs low inside
    exact (exec_ljmp f s).trans (runInstr_completes runs (ldeaBody_completes (s := s.advance) inside toP mode))
  · rintro rfl f runs low off inside
    exact (exec_ljmpR f s).trans (runInstr_completes runs (ldeaBody_completes (s := s.advance) inside toP mode))
  · rintro rfl c runs
    have body := ldeaBody_completes (src := .l) (s.advance.staysInside_zero _) toP mode
    rw [add_zero] at body
    exact (exec_rets c s).trans (runInstr_completes runs body)

/-- Settles O32. -/
theorem branchTarget : Obligations.BranchTarget := by
  refine ⟨?_, ?_, fun s => rfl⟩
  · intro f s runs low inside
    exact (exec_bran f s).trans (runInstr_completes runs (branBody_completes (s := s.advance) inside))
  · intro f s runs low off inside
    exact (exec_branR f s).trans (runInstr_completes runs (branBody_completes (s := s.advance) inside))

/-- Settles O33. -/
theorem longSubroutineCall : Obligations.LongSubroutineCall := by
  intro s mode called
  have mode : s.advance.isProtected = false := mode
  constructor
  · intro f runs low inside
    exact (exec_ljsr f s).trans (runInstr_completes runs (ljsrBody_completes (s := s.advance) inside mode))
  · intro f runs low off inside
    exact (exec_ljsrR f s).trans (runInstr_completes runs (ljsrBody_completes (s := s.advance) inside mode))

/-- Settles O34. -/
theorem branchToSubroutine : Obligations.BranchToSubroutine := by
  intro s called
  constructor
  · intro f runs low inside
    exact (exec_brsr f s).trans (runInstr_completes runs (brsrBody_completes (s := s.advance) inside))
  · intro f runs low off inside
    exact (exec_brsrR f s).trans (runInstr_completes runs (brsrBody_completes (s := s.advance) inside))

/-- Settles O30: every body answers the overflow of its sums, once its earlier tests are passed. -/
theorem segmentOverflowFault : Obligations.SegmentOverflowFault := by
  intro s trap
  have toP : Reg.ph = Pair.high .p ∨ Reg.ph = Pair.low .p := .inl rfl
  refine ⟨?_, ?_, ?_⟩
  · intro f holds low
    have store := storeIndirect_overflows (s := s.advance) (reg := f.reg) (pair := f.af) (off := f.imm) noShift_kind
    have pre := storePreDecrement_overflows (s := s.advance) (reg := f.reg) (pair := f.af) (off := f.imm) noShift_kind
    have load := loadIndirect_overflows (s := s.advance) (reg := f.reg) (pair := f.af) (off := f.imm) noShift_kind
    have post := loadPostIncrement_overflows (s := s.advance) (reg := f.reg) (pair := f.af) (off := f.imm) noShift_kind
    simp only [State.offsetWord_noShift] at store pre load post
    refine ⟨fun outside => ⟨?_, ?_, ?_, fun allowed => ⟨?_, ?_⟩, fun mode => ⟨?_, fun d hd => ?_⟩⟩,
      fun outside => ?_, fun outside allowed => ?_⟩
    · exact runInstr_raises holds (store outside)
    · exact runInstr_raises holds (branBody_overflows (s := s.advance) outside)
    · exact runInstr_raises holds (brsrBody_overflows (s := s.advance) outside)
    · exact runInstr_raises holds (load allowed outside)
    · exact runInstr_raises holds (post allowed (.inl outside))
    · exact runInstr_raises holds (ljsrBody_overflows (s := s.advance) outside mode)
    · exact runInstr_raises holds (ldeaBody_overflows (s := s.advance) outside hd mode)
    · exact runInstr_raises holds (pre outside)
    · exact runInstr_raises holds (post allowed (.inr outside))
  · intro f holds low off
    rw [exec_storIndR, exec_loadIndR, exec_loadPostR, exec_storPreR, exec_branR, exec_brsrR, exec_ljsrR, exec_ldeaR]
    refine ⟨fun hsh => ⟨fun outside => ⟨?_, fun allowed => ⟨?_, ?_⟩⟩, fun outside => ?_, fun outside allowed => ?_⟩,
      fun outside => ⟨?_, ?_, fun mode => ⟨?_, fun d hd => ?_⟩⟩⟩
    · exact runInstr_raises holds (storeIndirect_overflows (s := s.advance) hsh outside)
    · exact runInstr_raises holds (loadIndirect_overflows (s := s.advance) hsh allowed outside)
    · exact runInstr_raises holds (loadPostIncrement_overflows (s := s.advance) hsh allowed (.inl outside))
    · exact runInstr_raises holds (storePreDecrement_overflows (s := s.advance) hsh outside)
    · exact runInstr_raises holds (loadPostIncrement_overflows (s := s.advance) hsh allowed (.inr outside))
    · exact runInstr_raises holds (branBody_overflows (s := s.advance) outside)
    · exact runInstr_raises holds (brsrBody_overflows (s := s.advance) outside)
    · exact runInstr_raises holds (ljsrBody_overflows (s := s.advance) outside mode)
    · exact runInstr_raises holds (ldeaBody_overflows (s := s.advance) outside hd mode)
  · intro mode
    refine ⟨fun f holds outside => ?_, fun f holds outside => ?_⟩
    · exact (exec_ljmp f s).trans (runInstr_raises holds (ldeaBody_overflows (s := s.advance) outside toP mode))
    · exact (exec_ljmpR f s).trans (runInstr_raises holds (ldeaBody_overflows (s := s.advance) outside toP mode))

end Sys2Proof.Machine
end

section
/-! The rotations through the carry and the outputs of the shifter (rules R131 to R140, R231). -/

namespace Sys2Proof.Machine

/-! Rotation: the operand and the carry are a ring of 17 bits, the carry at the top (rules R137, R138). -/

/-- The 17 bits carry : operand. -/
def carryRing (x : Word × Bool) : BitVec 17 := BitVec.ofBool x.2 ++ x.1

theorem carryRing_word (x : Word × Bool) : (carryRing x).extractLsb' 0 16 = x.1 :=
  BitVec.extractLsb'_append_eq_right

theorem carryRing_carry (x : Word × Bool) : (carryRing x).getLsbD 16 = x.2 := by
  rw [carryRing, BitVec.getLsbD_append, if_neg (by decide)]
  exact BitVec.getLsbD_ofBool x.2 0

theorem carryRing_rotateLeftOnce (x : Word × Bool) : carryRing (rotateLeftOnce x) = (carryRing x).rotateLeft 1 := by
  simp only [carryRing, rotateLeftOnce]
  grind

theorem carryRing_rotateRightOnce (x : Word × Bool) :
    carryRing (rotateRightOnce x) = (carryRing x).rotateRight 1 := by
  simp only [carryRing, rotateRightOnce]
  grind

/-- The left rotations of the shifter are those of the ring. -/
theorem carryRing_rotateLeft (n : Nat) (x : Word × Bool) :
    carryRing (rotate rotateLeftOnce n x) = (carryRing x).rotateLeft n := by
  induction n generalizing x with
  | zero => simp only [rotate]; grind
  | succ n ih => rw [rotate, ih, carryRing_rotateLeftOnce]; grind

/-- The right rotations of the shifter are those of the ring. -/
theorem carryRing_rotateRight (n : Nat) (x : Word × Bool) :
    carryRing (rotate rotateRightOnce n x) = (carryRing x).rotateRight n := by
  induction n generalizing x with
  | zero => simp only [rotate]; grind
  | succ n ih => rw [rotate, ih, carryRing_rotateRightOnce]; grind

/-- Settles O13. -/
theorem rotatesThroughCarry : Obligations.RotatesThroughCarry := by
  intro v n c hpos hle ring
  have pos : n.toNat ≠ 0 := Nat.ne_of_gt hpos
  have left := carryRing_rotateLeft n.toNat (v, c)
  have right := carryRing_rotateRight n.toNat (v, c)
  rw [shiftOutput_eq_shiftBy _ v c hle, shiftOutput_eq_shiftBy _ v c hle, shiftBy, shiftBy, if_neg pos, if_neg pos,
    ← carryRing_word (rotate rotateLeftOnce n.toNat (v, c)), ← carryRing_carry (rotate rotateLeftOnce n.toNat (v, c)),
    ← carryRing_word (rotate rotateRightOnce n.toNat (v, c)),
    ← carryRing_carry (rotate rotateRightOnce n.toNat (v, c)), left, right]
  exact ⟨rfl, rfl⟩

/-! Which outputs exist -/

/-- A count of 0 shifts nothing, whatever the type. -/
theorem shiftOutput_zero {k : ShiftType} (v : Word) (c : Bool) (h : k ≠ .reserved) :
    shiftOutput k v 0 c = some ⟨v, none⟩ := by
  rw [shiftOutput_eq_shiftBy k v c (by decide)]
  cases k with
  | reserved => exact absurd rfl h
  | none | lsl | lsr | asl | asr | rtl | rtr => rfl

/-- The type none does not look at its count (rule R139). -/
theorem shiftOutput_none (v n : Word) (c : Bool) : shiftOutput .none v n c = some ⟨v, none⟩ :=
  if_pos (.inr (.inl rfl))

section
variable {s : State} {sh : Shift} {v : Word} {out : ShiftOut}
  (h : shiftOutput sh.kind v (s.shiftCount sh.count) (srFlags s.sr).c = some out)
include h

theorem State.memShift_data (target : s.platform.memShift = .data) :
    s.dataWord sh v = out.res ∧ s.offsetWord sh v = v := by
  simp only [State.dataWord, State.offsetWord, target, State.shiftedWord_eq h, and_self]

theorem State.memShift_offset (target : s.platform.memShift = .offset) :
    s.dataWord sh v = v ∧ s.offsetWord sh v = out.res := by
  simp only [State.dataWord, State.offsetWord, target, State.shiftedWord_eq h, and_self]

end

/-- Settles O14. -/
theorem shiftOutputsExist : Obligations.ShiftOutputsExist :=
  ⟨fun _ v n c => ⟨shiftOutput_zero v c, shiftOutput_none v n c, shiftOutput_some v n c, shiftOutput_reserved v n c⟩,
    fun _ _ _ _ h => ⟨State.memShift_data h, State.memShift_offset h⟩⟩

end Sys2Proof.Machine
end

section
/-! The coprocessor call (rules R270 to R284): the tests of rule R274 in their order, then each operation of the
exception unit. -/

namespace Sys2Proof.Machine

/-! The call value (rule R271): coprocessor id in bits 15 to 12, operation in bits 11 to 8, parameter in bits 7 to 0 -/

theorem callValue_id (operation par : BitVec 8) : (operation ++ par).extractLsb' 12 4 = operation.extractLsb' 4 4 :=
  BitVec.extractLsb'_append_eq_of_le (by decide)

theorem callValue_operation (operation par : BitVec 8) :
    (operation ++ par).extractLsb' 8 4 = operation.extractLsb' 0 4 :=
  BitVec.extractLsb'_append_eq_of_le (by decide)

theorem callValue_parameter (operation par : BitVec 8) : (operation ++ par).extractLsb' 0 8 = par :=
  BitVec.extractLsb'_append_eq_right

/-- Of the coprocessors above 1 a machine has those its platform adds (rule R272). -/
theorem hasUnit_optional {id : BitVec 4} (s : State) (h : 2 ≤ id) :
    s.hasUnit id = s.platform.optionalUnits.contains id := by
  have notFixed : ∀ j : BitVec 4, 2 ≤ j → Config.fixedUnits.contains j = false := by decide
  rw [State.hasUnit, notFixed id h, Bool.false_or]

theorem optional_ne_fixed {id : BitVec 4} (h : 2 ≤ id) : (id == 0) = false ∧ (id != 1) = true := by
  revert id; decide

/-! The tests before an operation (rule R274) -/

section
variable {s : State} {v : Word}

theorem coprocessorCall_violates (mode : s.isProtected = true) (h : 8 ≤ v.extractLsb' 8 4) :
    coprocessorCall v s = .error (.raise privilegeViolation) := by
  simp only [coprocessorCall, mode, h, decide_true, Bool.and_self]
  rfl

/-- The privilege test passes in supervisor mode, and for the operations below 8. -/
theorem privilegeTest_passes (h : s.isProtected = false ∨ v.extractLsb' 8 4 < 8) :
    (s.isProtected && decide (8 ≤ v.extractLsb' 8 4)) = false := by
  rcases h with mode | below
  · rw [mode, Bool.false_and]
  · rw [decide_eq_false (BitVec.not_le.mpr below), Bool.and_false]

variable (allowed : s.isProtected = false ∨ v.extractLsb' 8 4 < 8)
include allowed

theorem coprocessorCall_processingUnit (h : v.extractLsb' 12 4 = 0) :
    coprocessorCall v s = .error (.refuse .processingUnitCall) := by
  simp only [coprocessorCall, privilegeTest_passes allowed, h]
  rfl

theorem coprocessorCall_exceptionUnit (h : v.extractLsb' 12 4 = 1) :
    coprocessorCall v s = exceptionUnit (v.extractLsb' 8 4) (v.extractLsb' 0 8) (s.withCause v) := by
  simp only [coprocessorCall, privilegeTest_passes allowed, h]
  rfl

theorem coprocessorCall_absent (h : 2 ≤ v.extractLsb' 12 4)
    (absent : v.extractLsb' 12 4 ∉ s.platform.optionalUnits) :
    coprocessorCall v s = .error (.raise invalidOpcode) := by
  simp only [coprocessorCall, privilegeTest_passes allowed, (optional_ne_fixed h).1, hasUnit_optional s h,
    List.contains_eq_mem, decide_eq_false absent]
  rfl

theorem coprocessorCall_optional (h : 2 ≤ v.extractLsb' 12 4)
    (present : v.extractLsb' 12 4 ∈ s.platform.optionalUnits) :
    coprocessorCall v s = .error (.refuse .optionalUnit) := by
  obtain ⟨notProcessing, optional⟩ := optional_ne_fixed h
  simp only [coprocessorCall, privilegeTest_passes allowed, notProcessing, optional, hasUnit_optional s h,
    List.contains_eq_mem, decide_eq_true present]
  rfl

end

/-! The operations -/

section
variable {s : State} {par : BitVec 8}

theorem excpOperation_completes (vector : 0x60 ≤ par) (level : s.level = 0) (readable : s.vectorReadable par) :
    excpOperation par s = .ok { s with
      links := s.links.set 0 ⟨s.pc, s.sr &&& 0xDFFF, 0⟩
      sr := s.sr &&& 0x7EFF, level := 1, waiting := false
      ph := s.vectorHigh par, pl := s.vectorLow par } := by
  obtain ⟨high, low⟩ := readable
  have status : s.statusWord = s.sr &&& 0xDFFF := by simp [State.statusWord, level]
  simp only [excpOperation, decide_eq_false (BitVec.not_lt.mpr vector), level,
    State.exceptionEntry_readable high low, status]
  rfl

theorem excpOperation_unreadable (vector : 0x60 ≤ par) (level : s.level = 0) (refused : ¬ s.vectorReadable par) :
    excpOperation par s = .error (.halt .vectorReadBusError) := by
  simp only [excpOperation, decide_eq_false (BitVec.not_lt.mpr vector), level, State.exceptionEntry,
    State.readVector_unreadable refused]
  rfl

theorem excpOperation_nested (vector : 0x60 ≤ par) (level : s.level ≠ 0) :
    excpOperation par s = .error (.refuse .excpNested) := by
  simp only [excpOperation, decide_eq_false (BitVec.not_lt.mpr vector), bne_iff_ne.mpr level]
  rfl

theorem excpOperation_low_supervisor (vector : par < 0x60) (mode : s.isProtected = false) :
    excpOperation par s = .error (.refuse .excpVector) := by
  simp only [excpOperation, decide_eq_true vector, mode]
  rfl

theorem excpOperation_low_protected (vector : par < 0x60) (mode : s.isProtected = true) :
    excpOperation par s = .error (.raise privilegeViolation) := by
  simp only [excpOperation, decide_eq_true vector, mode]
  rfl

theorem reteOperation_completes {n : Fin 7} (level : s.level = n.succ) :
    reteOperation s = .ok (s.returnFrom n.castSucc) := by
  have below : ∀ m : Fin 7, m.succ ≠ 0 ∧ m.succ - 1 = m.castSucc := by decide
  obtain ⟨handling, link⟩ := below n
  rw [reteOperation, level, if_neg handling, link]

theorem reteOperation_refuses (level : s.level = 0) : reteOperation s = .error (.refuse .reteAtLevelZero) :=
  if_pos level

theorem rsetOperation_completes (readable : s.vectorReadable 0) :
    rsetOperation s = .ok { s with sr := 0, level := 0, ph := s.vectorHigh 0, pl := s.vectorLow 0 } := by
  obtain ⟨high, low⟩ := readable
  simp only [rsetOperation, State.readVector_readable high low, orHalt, ok_bind, State.withPc,
    BitVec.extractLsb'_append_eq_left, BitVec.extractLsb'_append_eq_right]
  rfl

/-- Bits 3, 6 and 7 of the parameter are reserved (rule R282). -/
theorem badLinkParameter_iff (par : BitVec 8) : badLinkParameter par = true ↔
    par.getLsbD 3 = true ∨ par.getLsbD 6 = true ∨ par.getLsbD 7 = true := by
  revert par; decide

theorem linkParameter_valid {n : Fin 8} (h6 : par.getLsbD 6 = false) (h7 : par.getLsbD 7 = false)
    (h : par.toNat % 16 = n.val) : badLinkParameter par = false ∧ linkIndex par = n := by
  have h3 : par.getLsbD 3 = false := by
    rw [BitVec.getLsbD, Nat.testBit_eq_decide_div_mod_eq, decide_eq_false_iff_not]
    omega
  constructor
  · rw [← Bool.not_eq_true, badLinkParameter_iff, h3, h6, h7]
    decide
  · apply Fin.ext
    show (par.extractLsb' 0 3).toNat = n.val
    rw [BitVec.extractLsb'_toNat, Nat.shiftRight_zero]
    omega

theorem etfrOperation_completes (h : badLinkParameter par = false) :
    etfrOperation par s = .ok { s with gen := { s.gen with
      ah := if par.getLsbD 4 then (s.links[linkIndex par]).address.extractLsb' 16 16 else s.gen.ah
      al := if par.getLsbD 4 then (s.links[linkIndex par]).address.extractLsb' 0 16 else s.gen.al
      r7 := if par.getLsbD 5 then (s.links[linkIndex par]).status else s.gen.r7 } } := by
  simp only [etfrOperation, h, refuseIf_false, ok_bind]
  cases par.getLsbD 4 <;> cases par.getLsbD 5 <;> rfl

theorem ettrOperation_completes (h : badLinkParameter par = false) :
    ettrOperation par s = .ok { s with
      links := s.links.set (linkIndex par) ⟨
        if par.getLsbD 4 then s.gen.ah ++ s.gen.al else (s.links[linkIndex par]).address,
        if par.getLsbD 5 then s.gen.r7 else (s.links[linkIndex par]).status,
        (s.links[linkIndex par]).level⟩ } := by
  simp only [ettrOperation, h, refuseIf_false, ok_bind]
  cases par.getLsbD 4 <;> cases par.getLsbD 5 <;> rfl

theorem etfrOperation_refuses (h : badLinkParameter par = true) :
    etfrOperation par s = .error (.refuse .linkParameter) := by
  rw [etfrOperation, h]; rfl

theorem ettrOperation_refuses (h : badLinkParameter par = true) :
    ettrOperation par s = .error (.refuse .linkParameter) := by
  rw [ettrOperation, h]; rfl

theorem exceptionUnit_unassigned {opc : BitVec 4} (h2 : 2 ≤ opc) (h8 : opc ≤ 8) :
    exceptionUnit opc par s = .error (.raise invalidOpcode) := by
  have low : 2 ≤ opc.toNat := BitVec.le_def.mp h2
  have high : opc.toNat ≤ 8 := BitVec.le_def.mp h8
  unfold exceptionUnit
  split
  case h_10 => rfl
  all_goals omega

theorem exceptionUnit_internal {opc : BitVec 4} (h : opc = 0 ∨ opc = 0xE ∨ opc = 0xF) :
    exceptionUnit opc par s = .error (.refuse .internalOperation) := by
  rcases h with rfl | rfl | rfl <;> rfl

/-- A call of the exception unit by operation byte and parameter (rules R304 to R309). -/
theorem coprocessorCall_unit {operation : BitVec 8} (unit : operation.extractLsb' 4 4 = 1)
    (allowed : s.isProtected = false ∨ operation.extractLsb' 0 4 < 8) :
    coprocessorCall (operation ++ par) s =
      exceptionUnit (operation.extractLsb' 0 4) par (s.withCause (operation ++ par)) := by
  rw [coprocessorCall_exceptionUnit (by rwa [callValue_operation]) (by rwa [callValue_id]), callValue_operation,
    callValue_parameter]

end

/-! The six named calls. EXCP is for both modes, the others are for supervisor mode. -/

section
variable {s : State} (par : BitVec 8)

theorem coprocessorCall_excp : coprocessorCall ((0x11 : BitVec 8) ++ par) s =
    excpOperation par (s.withCause ((0x11 : BitVec 8) ++ par)) := coprocessorCall_unit rfl (.inr (by decide))

variable (mode : s.isProtected = false)
include mode

theorem coprocessorCall_wait : coprocessorCall ((0x19 : BitVec 8) ++ par) s =
    waitOperation (s.withCause ((0x19 : BitVec 8) ++ par)) := coprocessorCall_unit rfl (.inl mode)

theorem coprocessorCall_rete : coprocessorCall ((0x1A : BitVec 8) ++ par) s =
    reteOperation (s.withCause ((0x1A : BitVec 8) ++ par)) := coprocessorCall_unit rfl (.inl mode)

theorem coprocessorCall_rset : coprocessorCall ((0x1B : BitVec 8) ++ par) s =
    rsetOperation (s.withCause ((0x1B : BitVec 8) ++ par)) := coprocessorCall_unit rfl (.inl mode)

theorem coprocessorCall_etfr : coprocessorCall ((0x1C : BitVec 8) ++ par) s =
    etfrOperation par (s.withCause ((0x1C : BitVec 8) ++ par)) := coprocessorCall_unit rfl (.inl mode)

theorem coprocessorCall_ettr : coprocessorCall ((0x1D : BitVec 8) ++ par) s =
    ettrOperation par (s.withCause ((0x1D : BitVec 8) ++ par)) := coprocessorCall_unit rfl (.inl mode)

end

/-- Settles O35. -/
theorem softwareException : Obligations.SoftwareException := by
  intro f s runs vector level readable
  rw [exec_excp]
  refine runInstr_completes runs ((coprocessorCall_excp f.par).trans ?_)
  exact excpOperation_completes (s := s.advance.withCause ((0x11 : BitVec 8) ++ f.par)) vector level readable

/-- Settles O36. -/
theorem waitReturnReset : Obligations.WaitReturnReset := by
  intro f s runs mode
  have mode : s.advance.isProtected = false := mode
  rw [exec_wait, exec_rete, exec_rset]
  refine ⟨?_, fun n level => ?_, fun readable => ?_⟩
  · exact runInstr_completes runs (coprocessorCall_wait f.par mode)
  · refine runInstr_completes runs ((coprocessorCall_rete f.par mode).trans ?_)
    exact reteOperation_completes (s := s.advance.withCause ((0x1A : BitVec 8) ++ f.par)) level
  · refine runInstr_completes runs ((coprocessorCall_rset f.par mode).trans ?_)
    exact rsetOperation_completes (s := s.advance.withCause ((0x1B : BitVec 8) ++ f.par)) readable

/-- Settles O37. -/
theorem linkRegisterTransfer : Obligations.LinkRegisterTransfer := by
  intro f s n runs mode bit6 bit7 number lr toA toR7
  obtain ⟨valid, rfl⟩ := linkParameter_valid bit6 bit7 number
  have mode : s.advance.isProtected = false := mode
  rw [exec_etfr, exec_ettr]
  constructor
  · refine runInstr_completes runs ((coprocessorCall_etfr f.par mode).trans ?_)
    exact etfrOperation_completes (s := s.advance.withCause ((0x1C : BitVec 8) ++ f.par)) valid
  · refine runInstr_completes runs ((coprocessorCall_ettr f.par mode).trans ?_)
    exact ettrOperation_completes (s := s.advance.withCause ((0x1D : BitVec 8) ++ f.par)) valid

/-! Calls by their value -/

/-- Of an instruction only its condition and its body on the advanced machine matter. -/
theorem runInstr_congr {c d : Cond} {s : State} {body other : State → Except Stop State} (hc : c = d)
    (h : body s.advance = other s.advance) : runInstr c s body = runInstr d s other := by
  rw [runInstr, runInstr, hc, h]

/-- A WAIT call by its value alone, in supervisor mode. -/
theorem coprocessorCall_wait_value {s : State} {v : Word} (mode : s.isProtected = false)
    (h : v.extractLsb' 8 8 = 0x19) : coprocessorCall v s = .ok { s with cause := v, waiting := true } := by
  have parts : v = (0x19 : BitVec 8) ++ v.extractLsb' 0 8 := by rw [← h]; grind
  rw [parts]
  exact coprocessorCall_wait _ mode

/-- Settles O38. -/
theorem callValueDecides : Obligations.CallValueDecides := by
  intro s f
  refine ⟨fun g hc hv => ?_, fun g hc hv => ?_, fun g hc hv => ?_, fun u hc => ?_, fun runs mode h => ⟨?_, ?_⟩⟩
  · rw [exec_copi, exec_copi, hc, hv]
  · rw [exec_copiS, exec_copi]
    exact runInstr_congr hc (congrArg (coprocessorCall · s.advance) hv)
  · rw [exec_copr, exec_copi]
    exact runInstr_congr hc (congrArg (coprocessorCall · s.advance) hv)
  · rw [exec_excp, exec_wait, exec_rete, exec_rset, exec_etfr, exec_ettr, exec_copi, hc]
    refine ⟨?_, ?_, ?_, ?_, ?_, ?_⟩ <;> (intro hv; rw [hv]; rfl)
  · rw [exec_copi]
    exact runInstr_completes runs (coprocessorCall_wait_value (s := s.advance) mode h)
  · intro g hc hv
    rw [exec_copr, hc]
    exact runInstr_completes runs (by rw [hv]; exact coprocessorCall_wait_value (s := s.advance) mode h)

/-- Settles O39. -/
theorem invalidOpcodeFault : Obligations.InvalidOpcodeFault := by
  intro f s holds id opc allowed call
  have allowed : s.advance.isProtected = false ∨ f.imm.extractLsb' 8 4 < 8 := allowed
  rw [exec_copi]
  refine runInstr_raises holds ?_
  rcases call with ⟨optional, absent⟩ | ⟨unit, low, high⟩
  · exact coprocessorCall_absent allowed optional absent
  · exact (coprocessorCall_exceptionUnit allowed unit).trans (exceptionUnit_unassigned low high)

/-- Settles O42. -/
theorem unitCallsRefused : Obligations.UnitCallsRefused := by
  intro s
  constructor
  · intro f holds
    rw [exec_excp, exec_rete, exec_etfr, exec_ettr]
    refine ⟨fun vector level => ?_, fun mode vector => ?_, fun mode level => ?_, fun mode reserved => ⟨?_, ?_⟩⟩
    · exact runInstr_refuses holds ((coprocessorCall_excp f.par).trans (excpOperation_nested vector level))
    · exact runInstr_refuses holds ((coprocessorCall_excp f.par).trans (excpOperation_low_supervisor vector mode))
    · exact runInstr_refuses holds
        ((coprocessorCall_rete (s := s.advance) f.par mode).trans (reteOperation_refuses level))
    · exact runInstr_refuses holds ((coprocessorCall_etfr (s := s.advance) f.par mode).trans
        (etfrOperation_refuses ((badLinkParameter_iff _).mpr reserved)))
    · exact runInstr_refuses holds ((coprocessorCall_ettr (s := s.advance) f.par mode).trans
        (ettrOperation_refuses ((badLinkParameter_iff _).mpr reserved)))
  · intro f holds opc allowed
    have allowed : s.advance.isProtected = false ∨ f.imm.extractLsb' 8 4 < 8 := allowed
    rw [exec_copi]
    refine ⟨fun unit => ?_, fun unit operation => ?_, fun optional present => ?_⟩
    · exact runInstr_refuses holds (coprocessorCall_processingUnit allowed unit)
    · exact runInstr_refuses holds
        ((coprocessorCall_exceptionUnit allowed unit).trans (exceptionUnit_internal operation))
    · exact runInstr_refuses holds (coprocessorCall_optional allowed optional present)

/-! A trap and its return -/

/-- An EXCP that comes to a next state without a trace was at level 0, and its vector was answered. -/
theorem exec_excp_next {f : UnitForm} {s t : State} (runs : s.executes f.cond) (vector : 0x60 ≤ f.par)
    (h : exec (.excp f) s = .next t) : s.level = 0 ∧ s.vectorReadable f.par := by
  obtain ⟨holds, -⟩ := runs
  have level : s.level = 0 := by
    by_contra nested
    have refused := ((unitCallsRefused s).1 f holds).1 vector nested
    rw [h] at refused
    cases refused
  refine ⟨level, ?_⟩
  by_contra unreadable
  have body := excpOperation_unreadable (s := s.advance.withCause ((0x11 : BitVec 8) ++ f.par)) vector level unreadable
  have stops : exec (.excp f) s = .fault .vectorReadBusError := by
    rw [exec_excp, runInstr_run holds]
    exact congrArg (finish s) ((coprocessorCall_excp f.par).trans body)
  rw [h] at stops
  cases stops

/-- What EXCP leaves for its handler. -/
theorem exec_excp_fields {f : UnitForm} {s t : State} (runs : s.executes f.cond) (vector : 0x60 ≤ f.par)
    (h : exec (.excp f) s = .next t) :
    t.links[0] = ⟨s.ph ++ (s.pl + 2), s.sr &&& 0xDFFF, s.level⟩ ∧ t.level = 1 ∧ t.sr = s.sr &&& 0x7EFF ∧
      t.gen = s.gen ∧ t.mem = s.mem := by
  obtain ⟨level, readable⟩ := exec_excp_next runs vector h
  have entered := softwareException f s runs vector level readable
  rw [h] at entered
  obtain rfl := Host.Outcome.next.inj entered
  refine ⟨?_, rfl, rfl, rfl, rfl⟩
  rw [level]
  exact Vector.getElem_set_self _

/-- What RETE at level 1 gives back. -/
theorem exec_rete_fields {g : UnitForm} {t u : State} (runs : t.executes g.cond) (mode : t.isProtected = false)
    (level : t.level = 1) (h : exec (.rete g) t = .next u) :
    u.pc = (t.links[0]).address ∧ u.sr = (t.links[0]).status &&& 0xDFFF ∧ u.level = (t.links[0]).level ∧
      u.gen = t.gen ∧ u.mem = t.mem := by
  obtain ⟨-, returned, -⟩ := waitReturnReset g t runs mode
  have returned := returned 0 level
  rw [h] at returned
  obtain rfl := Host.Outcome.next.inj returned
  refine ⟨?_, rfl, rfl, rfl, rfl⟩
  have halves (x : Long) : x.extractLsb' 16 16 ++ x.extractLsb' 0 16 = x := by grind
  exact halves _

/-- Settles O60: EXCP leaves level 1 and supervisor mode, where RETE takes back what LR0 saved. -/
theorem trapThenReturn : Obligations.TrapThenReturn := by
  intro f g s t u runs bit13 vector trap holds back
  obtain ⟨link, level, sr, gen, mem⟩ := exec_excp_fields runs vector trap
  have supervisor : t.isProtected = false := isProtected_of_and_7EFF sr
  have untraced : t.tracing = false := by rw [State.tracing, sr]; exact (and_7EFF s.sr).2
  obtain ⟨pc, status, backLevel, backGen, backMem⟩ := exec_rete_fields ⟨holds, untraced⟩ supervisor level back
  rw [link] at pc status backLevel
  have stored : s.sr &&& 0xDFFF &&& 0xDFFF = s.sr := by
    refine BitVec.eq_of_getLsbD_eq fun i _ => ?_
    rw [and_DFFF_getLsbD, and_DFFF_getLsbD]
    by_cases bit : i = 13
    · rw [bit, bit13]; rfl
    · simp [bit]
  exact ⟨pc, status.trans stored, backLevel, backGen.trans gen, backMem.trans mem⟩

end Sys2Proof.Machine
end

section
/-! What is not carried out: the privilege violations of protected mode (rules R28, R274, R342) and the reserved
encodings (rules R107, R140, R153, R178, R202, R217, R252, R275), from the rules about the bodies. -/

namespace Sys2Proof.Machine

theorem forbidsWrite_high {s : State} {r : Reg} (mode : s.isProtected = true) (high : Reg.isHigh r = true) :
    s.forbidsWrite r = true := by
  rw [State.forbidsWrite, mode, high]; rfl

/-- The operation of a call value is that of its high byte. -/
theorem coprocessorCall_unit_violates {s : State} {operation : BitVec 8} (par : BitVec 8) (mode : s.isProtected = true)
    (h : 8 ≤ operation.extractLsb' 0 4) :
    coprocessorCall (operation ++ par) s = .error (.raise privilegeViolation) :=
  coprocessorCall_violates mode (by rwa [callValue_operation])

/-- Settles O40. -/
theorem privilegeViolationFault : Obligations.PrivilegeViolationFault := by
  intro s mode trap
  have mode : s.advance.isProtected = true := mode
  have forbidden {r : Reg} (high : Reg.isHigh r = true) : s.advance.forbidsWrite r = true := forbidsWrite_high mode high
  have toP : Reg.ph = Pair.high .p ∨ Reg.ph = Pair.low .p := .inl rfl
  have source : FlagSource.shift ≠ .reserved := by decide
  refine ⟨?_, ?_, ?_, ?_, ?_, ?_, ?_, ?_, ?_, ?_, ?_, ?_⟩
  · intro f holds
    refine ⟨fun haf high => ?_, fun operation => ?_⟩
    · have saves (fn : AluFn) : runInstr f.cond s (aluImmBody fn true f) = trap :=
        runInstr_raises holds (aluStep_violates _ _ _ _ haf (forbidden high))
      exact ⟨saves .add, saves .adc, saves .sub, saves .sbc, saves .and, saves .orr, saves .xor,
        runInstr_raises holds (moveBody_violates _ haf (forbidden high))⟩
    · exact runInstr_raises holds (coprocessorCall_violates mode operation)
  · intro f holds haf high
    refine ⟨fun hsh => ?_, fun unshifted => ?_⟩
    · have saves (fn : AluFn) : runInstr f.cond s (aluShortBody fn true f) = trap :=
        runInstr_raises holds (shiftedAlu_violates hsh haf (forbidden high))
      exact ⟨saves .add, saves .adc, saves .sub, saves .sbc, saves .and, saves .orr, saves .xor⟩
    · rw [exec_loadS]
      exact runInstr_raises holds
        ((moveUnshiftedBody_unshifted _ unshifted).trans (moveBody_violates _ haf (forbidden high)))
  · intro f holds
    refine ⟨fun haf high => ⟨fun hsh => ?_, fun unshifted => ?_⟩, fun operation => ?_⟩
    · have saves (fn : AluFn) : runInstr f.cond s (aluRegBody fn true f) = trap :=
        runInstr_raises holds (shiftedAlu_violates hsh haf (forbidden high))
      exact ⟨saves .add, saves .adc, saves .sub, saves .sbc, saves .and, saves .orr, saves .xor⟩
    · rw [exec_loadr]
      exact runInstr_raises holds
        ((moveUnshiftedBody_unshifted _ unshifted).trans (moveBody_violates _ haf (forbidden high)))
    · rw [exec_copr]
      exact runInstr_raises holds (coprocessorCall_violates mode operation)
  · intro f holds hsh high
    exact runInstr_raises holds (shiftedAlu_violates hsh source (forbidden high))
  · intro f holds hsh high
    exact runInstr_raises holds (shiftedAlu_violates hsh source (forbidden high))
  · intro f holds hsh high
    exact runInstr_raises holds (shiftedAlu_violates hsh source (forbidden high))
  · intro f holds
    refine ⟨runInstr_raises holds (ljsrBody_violates mode), fun high => ⟨?_, ?_⟩, fun d hd => ?_⟩
    · exact runInstr_raises holds (loadIndirect_violates noShift_kind (forbidden high))
    · exact runInstr_raises holds (loadPostIncrement_violates noShift_kind (forbidden high))
    · exact runInstr_raises holds (ldeaBody_violates hd mode)
  · intro f holds
    rw [exec_ljsrR, exec_loadIndR, exec_loadPostR, exec_ldeaR]
    refine ⟨runInstr_raises holds (ljsrBody_violates mode), fun high hsh => ⟨?_, ?_⟩, fun d hd => ?_⟩
    · exact runInstr_raises holds (loadIndirect_violates hsh (forbidden high))
    · exact runInstr_raises holds (loadPostIncrement_violates hsh (forbidden high))
    · exact runInstr_raises holds (ldeaBody_violates hd mode)
  · intro c holds
    exact runInstr_raises holds (ldeaBody_violates toP mode)
  · intro f holds
    exact runInstr_raises holds (ldeaBody_violates toP mode)
  · intro f holds
    rw [exec_ljmpR]
    exact runInstr_raises holds (ldeaBody_violates toP mode)
  · intro f holds
    rw [exec_wait, exec_rete, exec_rset, exec_etfr, exec_ettr, exec_excp]
    have violates {operation : BitVec 8} (h : 8 ≤ operation.extractLsb' 0 4) :
        runInstr f.cond s (coprocessorCall (operation ++ f.par)) = trap :=
      runInstr_raises holds (coprocessorCall_unit_violates f.par mode h)
    refine ⟨violates (by decide), violates (by decide), violates (by decide), violates (by decide),
      violates (by decide), fun vector => ?_⟩
    exact runInstr_raises holds ((coprocessorCall_excp f.par).trans (excpOperation_low_protected vector mode))

/-! The reserved encodings -/

theorem undocumented_refuses {s : State} {body : State → Except Stop State} (h : s.platform.undocumented = .refuse) :
    undocumented body s = .error (.refuse .undocumentedOpcode) := by
  rw [undocumented, h]; rfl

theorem runInstr_undocumented_refuses {c : Cond} {s : State} (holds : condHolds c (srFlags s.sr) = true)
    (h : s.platform.undocumented = .refuse) (body : State → Except Stop State) :
    runInstr c s (undocumented body) = .refused .undocumentedOpcode :=
  runInstr_refuses holds (undocumented_refuses (s := s.advance) h)

/-- An extended constant whose bits 15 to 12 are 0 has operation 0, whichever way it was extended. -/
theorem State.extend8_operation {s : State} {b : BitVec 8} (h : (s.extend8 b).extractLsb' 12 4 = 0) :
    (s.extend8 b).extractLsb' 8 4 = 0 := by
  revert h
  unfold State.extend8
  split <;> revert b <;> decide

/-- The fourteen ALU instructions of the short format end as their template does. -/
theorem exec_aluShort_all {f : ShortForm} {s : State} {o : Host.Outcome State Fault Refusal}
    (h : ∀ fn save, runInstr f.cond s (aluShortBody fn save f) = o) :
    exec (.addiS f) s = o ∧ exec (.adciS f) s = o ∧ exec (.subiS f) s = o ∧ exec (.sbciS f) s = o ∧
      exec (.andiS f) s = o ∧ exec (.orriS f) s = o ∧ exec (.xoriS f) s = o ∧ exec (.cmpiS f) s = o ∧
      exec (.tsaiS f) s = o ∧ exec (.tsxiS f) s = o ∧
      (s.platform.undocumented = .hardwarePattern →
        exec (.addTest28 f) s = o ∧ exec (.adcTest29 f) s = o ∧ exec (.sbcTest2B f) s = o ∧
        exec (.orrTest2D f) s = o) := by
  refine ⟨h .add true, h .adc true, h .sub true, h .sbc true, h .and true, h .orr true, h .xor true, h .sub false,
    h .and false, h .xor false, fun pattern => ?_⟩
  have tests (fn : AluFn) : runInstr f.cond s (undocumented (aluShortBody fn false f)) = o :=
    (runInstr_undocumented pattern _ _).trans (h fn false)
  exact ⟨tests .add, tests .adc, tests .sbc, tests .orr⟩

/-- The fourteen ALU instructions of the register format end as their template does. -/
theorem exec_aluReg_all {f : RegForm FlagSource} {s : State} {o : Host.Outcome State Fault Refusal}
    (h : ∀ fn save, runInstr f.cond s (aluRegBody fn save f) = o) :
    exec (.addr f) s = o ∧ exec (.adcr f) s = o ∧ exec (.subr f) s = o ∧ exec (.sbcr f) s = o ∧
      exec (.andr f) s = o ∧ exec (.orrr f) s = o ∧ exec (.xorr f) s = o ∧ exec (.cmpr f) s = o ∧
      exec (.tsar f) s = o ∧ exec (.tsxr f) s = o ∧
      (s.platform.undocumented = .hardwarePattern →
        exec (.addTest38 f) s = o ∧ exec (.adcTest39 f) s = o ∧ exec (.sbcTest3B f) s = o ∧
        exec (.orrTest3D f) s = o) := by
  refine ⟨h .add true, h .adc true, h .sub true, h .sbc true, h .and true, h .orr true, h .xor true, h .sub false,
    h .and false, h .xor false, fun pattern => ?_⟩
  have tests (fn : AluFn) : runInstr f.cond s (undocumented (aluRegBody fn false f)) = o :=
    (runInstr_undocumented pattern _ _).trans (h fn false)
  exact ⟨tests .add, tests .adc, tests .sbc, tests .orr⟩

/-- Settles O41. -/
theorem reservedFormsRefused : Obligations.ReservedFormsRefused := by
  unfold Obligations.ReservedFormsRefused
  intro noSource noType
  refine ⟨?_, ?_, ?_, ?_, ?_, ?_, ?_, ?_⟩
  · intro f s holds
    have declined (mode : s.platform.undocumented = .refuse) (fn : AluFn) :=
      runInstr_undocumented_refuses holds mode (aluImmBody fn false f)
    refine ⟨fun haf => ?_, fun mode =>
      ⟨declined mode .add, declined mode .adc, declined mode .sbc, declined mode .orr⟩⟩
    have refuses (fn : AluFn) (save : Bool) : runInstr f.cond s (aluImmBody fn save f) = noSource :=
      runInstr_refuses holds (aluStep_refuses _ _ _ _ haf)
    refine ⟨refuses .add true, refuses .adc true, refuses .sub true, refuses .sbc true, refuses .and true,
      refuses .orr true, refuses .xor true, refuses .sub false, refuses .and false, refuses .xor false,
      runInstr_refuses holds (moveBody_refuses _ haf), fun pattern => ?_⟩
    have tests (fn : AluFn) : runInstr f.cond s (undocumented (aluImmBody fn false f)) = noSource :=
      (runInstr_undocumented pattern _ _).trans (refuses fn false)
    exact ⟨tests .add, tests .adc, tests .sbc, tests .orr⟩
  · intro f s holds
    have declined (mode : s.platform.undocumented = .refuse) (fn : AluFn) :=
      runInstr_undocumented_refuses holds mode (aluShortBody fn false f)
    rw [exec_loadS, exec_copiS]
    refine ⟨fun hsh => ?_, fun haf hsh => ?_, fun shifted => ?_, fun haf unshifted => ?_, fun mode =>
      ⟨declined mode .add, declined mode .adc, declined mode .sbc, declined mode .orr⟩, fun unit => ?_⟩
    · exact exec_aluShort_all fun fn save => runInstr_refuses holds (shiftedAlu_refuses_shift hsh)
    · exact exec_aluShort_all fun fn save => runInstr_refuses holds (shiftedAlu_refuses_source hsh haf)
    · exact runInstr_refuses holds (moveUnshiftedBody_refuses _ shifted)
    · exact runInstr_refuses holds ((moveUnshiftedBody_unshifted _ unshifted).trans (moveBody_refuses _ haf))
    · have below : (s.extend8 f.imm).extractLsb' 8 4 < 8 := by rw [State.extend8_operation unit]; decide
      exact runInstr_refuses holds (coprocessorCall_processingUnit (s := s.advance) (.inr below) unit)
  · intro f s holds
    have declined (mode : s.platform.undocumented = .refuse) (fn : AluFn) :=
      runInstr_undocumented_refuses holds mode (aluRegBody fn false f)
    rw [exec_loadr]
    refine ⟨fun hsh => ?_, fun haf hsh => ?_, fun shifted => ?_, fun haf unshifted => ?_, fun mode =>
      ⟨declined mode .add, declined mode .adc, declined mode .sbc, declined mode .orr⟩⟩
    · exact exec_aluReg_all fun fn save => runInstr_refuses holds (shiftedAlu_refuses_shift hsh)
    · exact exec_aluReg_all fun fn save => runInstr_refuses holds (shiftedAlu_refuses_source hsh haf)
    · exact runInstr_refuses holds (moveUnshiftedBody_refuses _ shifted)
    · exact runInstr_refuses holds ((moveUnshiftedBody_unshifted _ unshifted).trans (moveBody_refuses _ haf))
  · intro f s holds hsh
    exact runInstr_refuses holds (shiftedAlu_refuses_shift hsh)
  · intro f s holds hsh
    exact runInstr_refuses holds (shiftedAlu_refuses_shift hsh)
  · intro f s holds hsh
    exact runInstr_refuses holds (shiftedAlu_refuses_shift hsh)
  · intro f s holds
    rw [exec_storIndR, exec_storPreR, exec_loadIndR, exec_loadPostR, exec_ldeaR]
    refine ⟨fun hsh => ⟨?_, ?_, ?_, ?_⟩, fun noPair => ?_⟩
    · exact runInstr_refuses holds (storeIndirect_refuses hsh)
    · exact runInstr_refuses holds (storePreDecrement_refuses hsh)
    · exact runInstr_refuses holds (loadIndirect_refuses hsh)
    · exact runInstr_refuses holds (loadPostIncrement_refuses hsh)
    · exact runInstr_refuses holds (ldeaBody_refuses noPair)
  · intro f s holds noPair
    exact runInstr_refuses holds (ldeaBody_refuses noPair)

end Sys2Proof.Machine
end
